-- ==== Sys2Proof/Word.lean ====
section
/-! DEFINITION. The bit-vector types of the icmpp echo engine (spec/00_scope.md R10: all values are unsigned). -/

namespace Sys2Proof

/-- A byte: 8 bits (R10). -/
abbrev Byte := BitVec 8

/-- The spec's "word": 16 bits (R10). Checksum words, identifiers, sequences and lengths. -/
abbrev Half := BitVec 16

/-- A host-port register location or a command word: 32 bits (R21, R70). -/
abbrev Word := BitVec 32

/-- A host-port byte address: 20 bits (R53). -/
abbrev HostAddr := BitVec 20

end Sys2Proof
end

