-- ==== Sys2Proof/Config.lean ====
section
/-! DEFINITION. The implementation parameters of spec/00_scope.md R8 and R9, MAX_PLEN being the one open
parameter, and the one free value. -/

namespace Sys2Proof

/-- How far MAX_PLEN lies above its lower bound 56. The spec leaves it OPEN (R9, spec/92_eei_decisions.md D8), so it
is an opaque constant: no proof can see its value, and every claim holds whatever it is. DESIGN CHOICE, safe (log
entry 2). -/
opaque Config.maxPlenAbove56 : Fin 65412

/-- MAX_PLEN, the largest payload length the buffers hold: 56 ≤ MAX_PLEN ≤ 65467 (R9). -/
def Config.maxPlen : Nat := Config.maxPlenAbove56.val + 56

/-- HDR_LEN: the ICMP echo header is 8 bytes (R8). -/
def Config.hdrLen : Nat := 8

/-- DEFAULT_PLEN: the payload length when none is given (R8). -/
def Config.defaultPlen : Half := 56

/-- IP_HDR_MAX: the receive-buffer allowance for the IP header is 60 bytes (R8). -/
def Config.ipHdrMax : Nat := 60

/-- ECHO_REQ_V4 (R8). -/
def Config.echoRequestV4 : Byte := 8

/-- ECHO_REQ_V6, named by the source and never reached (R8, R29). -/
def Config.echoRequestV6 : Byte := 128

/-- The free value: what an empty datagram leaves in OFF (log entry 17). spec/70_reset_and_hazards.md R179 and
spec/42_session.md R133 say that every datagram read overwrites OFF, and no rule says with what when there is no first
byte. It may depend on how many free values were taken before, on the earlier OFF and on the byte RX[0], so that keeping
OFF, as the pseudocode of R133 does, is among its choices. DESIGN CHOICE, safe: no proof can see its value. -/
opaque Config.emptyDatagramOff : Nat → Half → Byte → Half

end Sys2Proof
end

