-- ==== Sys2Proof/Syntax.lean ====
section
/-! DEFINITION. The nine commands of spec/30_encoding.md R72 and R73 (one constructor per row of
spec/opcode_table.json) and the assembler lines of R76. -/

namespace Sys2Proof

/-- The operand of CSUM and DECODE: SRC = w[8], 0 = TXV and 1 = RXV (R13, R73). -/
inductive View where
  | tx
  | rx
  deriving DecidableEq, Repr

/-- The address family: FAM = w[8], 0 = IPv4 and 1 = IPv6 (R73). -/
inductive Family where
  | v4
  | v6
  deriving DecidableEq, Repr

/-- A command, with the free fields of its row of R73. -/
inductive Instr where
  /-- CSUM: checksum of a view (R92). -/
  | csum (src : View)
  /-- ENCODE: build an echo message of this type (R100). -/
  | encode (type : Byte)
  /-- PATCH: write the checksum into the message (R103). -/
  | patch
  /-- DECODE: parse an echo message (R104). -/
  | decode (src : View)
  /-- STRIP: compute the ICMP offset (R110). -/
  | strip
  /-- CONSTRUCT: open a session; plp says that ARG holds a payload length (R121). -/
  | construct (fam : Family) (plp : Bool) (id : Half)
  /-- SEND: transmit one echo request (R126). -/
  | send
  /-- RECV: receive one matching echo message (R131). -/
  | recv
  /-- CLOSE: end the session (R138). -/
  | close
  deriving DecidableEq, Repr

/-- One line of the assembler of R76, with its numbers as they are written. -/
inductive AsmLine where
  | csum (src : View)
  | encode (type : Nat)
  | patch
  | decode (src : View)
  | strip
  /-- withLength: the line says construct.p, not construct. -/
  | construct (withLength : Bool) (fam : Family) (id : Nat)
  | send
  | recv
  | close
  deriving DecidableEq, Repr

end Sys2Proof
end

