-- ==== Sys2Proof/Machine/State.lean ====
section
/-! DEFINITION. The state of the block (spec/10_state.md R20 to R44), the actions of its host (spec/42_session.md R120,
spec/20_memory.md R53, spec/70_reset_and_hazards.md R170), and the state after reset. -/

namespace Sys2Proof.Machine

/-- The session phase, STATUS.PHASE (R22, R25). -/
inductive Phase where
  | noSession
  | opened
  | sending
  | awaiting
  deriving DecidableEq, Repr

/-- The error names of STATUS.ECODE (spec/60_exceptions.md R150). Codes 7 to 15 are never produced. -/
inductive ErrorCode where
  | none
  | resolution
  | socketInit
  | transport
  | malformedInput
  | illegalCommand
  | sessionState
  deriving DecidableEq, Repr

/-- The fields of STATUS (R22). Its reserved bits read 0 and the host cannot write STATUS, so only the fields are
held; Status.word gives the register's value. DEDUCED, safe (log entry 14). -/
structure Status where
  busy : Bool
  done : Bool
  err : Bool
  ecode : ErrorCode
  phase : Phase
  deriving DecidableEq, Repr

/-- h.SOCK (R42): whether the block holds a host raw socket. -/
inductive SocketClaim where
  | none
  | held
  deriving DecidableEq, Repr

/-- h.STEP (R42): the point a busy command has reached. -/
inductive BusyStep where
  | idle
  | constructResolve
  | constructSocket
  | sendTx
  | recvWait
  deriving DecidableEq, Repr

/-- The registers of the register window, by name (R21). -/
inductive Reg where
  | cmd | status | arg | dest | id | seq | plen | family | csr | off | txlen | rxlen
  | rtype | rcode | rcsum | rid | rseq | rdlen | rtotlen | rsrc | txcnt | saddr
  deriving DecidableEq, Repr

/-- The four byte buffers (R41). -/
inductive Buffer where
  | payload
  | txbuf
  | rxbuf
  | rdata
  deriving DecidableEq, Repr

/-- A request of the block to its host (R120). -/
inductive HostRequest where
  | resolve (dest : Word) (fam : BitVec 1)
  | socket (fam : BitVec 1)
  | sendto (message : List Byte) (addr : Word)
  | recvfrom (capacity : Nat)
  /-- Host.close(): has no answer. -/
  | close
  deriving DecidableEq, Repr

/-- An answer of the host to a request (R120), named by the request's kind alone (log entry 18). -/
inductive HostAnswer where
  | resolveOk (addr : Word)
  | resolveFail
  | socketOk
  | socketFail
  | sendtoOk (count : Nat)
  | sendtoFail
  | recvfromOk (datagram : List Byte) (src : Word)
  | recvfromFail
  deriving DecidableEq, Repr

/-- One action of the host: an access on the host port of so many bytes at a byte address (spec/20_memory.md R53 to
R55), an answer (R120), or a reset (spec/70_reset_and_hazards.md R170). A one-byte write stores v[7:0] (DESIGN CHOICE,
safe, log entry 7). -/
inductive HostAction where
  | read (addr : HostAddr) (size : Nat)
  | write (addr : HostAddr) (size : Nat) (v : Word)
  | answer (a : HostAnswer)
  | reset
  deriving DecidableEq, Repr

/-- The bytes of the four buffers, keyed by host address, in the canonical form Memory.wf (Machine/Ops.lean): an
address that is not listed reads as 0, which is every byte's reset value (R41). -/
abbrev Memory := List Host.Cell

/-- What h.PEND_ID, h.PEND_PLEN and h.PEND_ADDR hold (R42). -/
structure Pending where
  id : Half
  plen : Half
  addr : Word
  deriving DecidableEq, Repr

/-- The state. First the registers of R21, then the buffers of R41, the hidden state of R42, the fault log of
spec/60_exceptions.md R160, and the model's own record of the host's side. -/
structure State where
  /-- CMD (R40). -/
  cmd : Word
  /-- STATUS (R22). -/
  status : Status
  /-- ARG (R32). -/
  arg : Word
  /-- DEST (R31). -/
  dest : Word
  /-- ID (R26). -/
  id : Half
  /-- SEQ (R27). -/
  seq : Half
  /-- PLEN (R28). -/
  plen : Half
  /-- FAMILY (R29). -/
  family : BitVec 1
  /-- CSR (R33). -/
  csr : Half
  /-- OFF (R34). -/
  off : Half
  /-- TXLEN (R35). -/
  txlen : Half
  /-- RXLEN (R36). -/
  rxlen : Half
  /-- RTYPE (R37). -/
  rtype : Byte
  /-- RCODE (R37). -/
  rcode : Byte
  /-- RCSUM (R37). -/
  rcsum : Half
  /-- RID (R37). -/
  rid : Half
  /-- RSEQ (R37). -/
  rseq : Half
  /-- RDLEN (R37). -/
  rdlen : Half
  /-- RTOTLEN (R38). -/
  rtotlen : Half
  /-- RSRC (R38). -/
  rsrc : Word
  /-- TXCNT (R39). -/
  txcnt : Half
  /-- SADDR (R30). -/
  saddr : Word
  /-- PAYLOAD, TXBUF, RXBUF and RDATA (R41). -/
  mem : Memory
  /-- h.SOCK (R42). -/
  sock : SocketClaim
  /-- h.STEP (R42). -/
  hstep : BusyStep
  /-- h.PEND_ID (R42). -/
  pendId : Half
  /-- h.PEND_PLEN (R42). -/
  pendPlen : Half
  /-- h.PEND_ADDR (R42). -/
  pendAddr : Word
  /-- The model's own: what the three held before the CONSTRUCT in progress, which a failure of it puts back
  (spec/60_exceptions.md R154; log entry 16); none while no CONSTRUCT is in progress. -/
  pendBefore : Option Pending
  /-- The fault log: the host violations recorded so far, oldest first (R160). Never cleared. -/
  violations : List HostAction
  /-- The model's own: the host actions still to come, oldest first (log entry 1). -/
  script : List HostAction
  /-- The model's own: the requests handed to the host so far, oldest first (log entry 8). -/
  outbox : List HostRequest
  /-- The model's own: the values the host's reads have returned so far, oldest first (log entry 8). -/
  readData : List Word
  /-- The model's own: how many free values were taken so far (Config.emptyDatagramOff; log entry 17). -/
  freeCount : Nat
  deriving DecidableEq, Repr

/-- There is no fault: no step of this machine stops it. An error is a completion code in STATUS
(spec/60_exceptions.md R157), and host-port misuse is an entry in State.violations (R160). Nothing raises one, which is
safe (log entry 3). -/
inductive Fault where
  deriving DecidableEq, Repr

/-- Why a step has no meaning. -/
inductive Refusal where
  /-- Raised only by an arm of exec whose instruction has no meaning yet; here no arm is such. Safe. -/
  | notModelled (mnemonic : String)
  deriving DecidableEq, Repr

/-- The state after reset (spec/70_reset_and_hazards.md R170; reset values of R21, R41 and R42). The model's
own fields and the fault log are empty: no violation recorded yet, nothing done by the host, no CONSTRUCT in progress, and
no free value taken (log entries 1, 8, 16 and 17). -/
def State.reset : State :=
  { cmd := 0
    status := { busy := false, done := false, err := false, ecode := .none, phase := .noSession }
    arg := 0
    dest := 0
    id := 0
    seq := 0
    plen := 56
    family := 0
    csr := 0
    off := 0
    txlen := 0
    rxlen := 0
    rtype := 0
    rcode := 0
    rcsum := 0
    rid := 0
    rseq := 0
    rdlen := 0
    rtotlen := 0
    rsrc := 0
    txcnt := 0
    saddr := 0
    mem := []
    sock := .none
    hstep := .idle
    pendId := 0
    pendPlen := 0
    pendAddr := 0
    pendBefore := none
    violations := []
    script := []
    outbox := []
    readData := []
    freeCount := 0 }

end Sys2Proof.Machine
end

