-- ==== Sys2Proof/Machine/Flags.lean ====
section
/-! DEFINITION. STATUS: its bit positions (spec/10_state.md R22), the error codes (spec/60_exceptions.md R150), and
what command issue and completion write in it (R152, R153). The block has no other flags. -/

namespace Sys2Proof.Machine

/-- The code of an error name (R150). -/
def ErrorCode.code : ErrorCode → BitVec 4
  | .none => 0
  | .resolution => 1
  | .socketInit => 2
  | .transport => 3
  | .malformedInput => 4
  | .illegalCommand => 5
  | .sessionState => 6

/-- The value of PHASE (R22). -/
def Phase.code : Phase → BitVec 2
  | .noSession => 0
  | .opened => 1
  | .sending => 2
  | .awaiting => 3

/-- The 32-bit value a host reads from STATUS: BUSY at 0, DONE at 1, ERR at 2, ECODE at 7:4, PHASE at 9:8, and 0 in
every reserved bit (R22). -/
def Status.word (st : Status) : Word :=
  0#22 ++ (st.phase.code ++ (st.ecode.code ++
    (0#1 ++ (BitVec.ofBool st.err ++ (BitVec.ofBool st.done ++ BitVec.ofBool st.busy)))))

/-- What command issue writes in STATUS: DONE ← 0, ERR ← 0, ECODE ← 0 (R152). -/
def Status.issued (st : Status) : Status :=
  { st with done := false, err := false, ecode := .none }

/-- What completion writes in STATUS: BUSY ← 0, DONE ← 1, ERR ← (e ≠ NONE), ECODE ← code(e) (R153). PHASE is set by
the command before it completes. -/
def Status.completed (e : ErrorCode) (st : Status) : Status :=
  { st with busy := false, done := true, err := decide (e ≠ .none), ecode := e }

/-- A session command's write of PHASE (R23, R25). -/
def Status.withPhase (p : Phase) (st : Status) : Status := { st with phase := p }

/-- BUSY ← 1: the command waits for a host answer (R122, R127, R131). -/
def Status.waiting (st : Status) : Status := { st with busy := true }

end Sys2Proof.Machine
end

