-- ==== Sys2Proof/Machine/Ops.lean ====
section
/-! DEFINITION. The shared operations: memory and the buffer windows (spec/10_state.md R41, spec/20_memory.md R53),
the register window (R21, R54), requests to the host (spec/42_session.md R120), the violation record
(spec/60_exceptions.md R160), and the ONE way a command ends or reports an error (R153). The block has no trap entry
and no return from one (R157, R158): completion takes their place, and the next issue clears the error (R152). -/

namespace Sys2Proof.Machine

/-! ### Memory -/

/-- The byte at an address; an address that is not listed reads as 0 (R41). -/
def Memory.read : Memory → Nat → Byte
  | [], _ => 0
  | c :: m, a => if c.1 = a then c.2 else Memory.read m a

/-- Puts a cell at its place in the order of addresses. -/
def Memory.insert (a : Nat) (v : Byte) : Memory → Memory
  | [] => [(a, v)]
  | c :: m => if a < c.1 then (a, v) :: c :: m else c :: Memory.insert a v m

/-- Takes every cell of an address out. -/
def Memory.erase (m : Memory) (a : Nat) : Memory := m.filter fun c => c.1 != a

/-- Writes a byte, keeping the canonical form: the byte an unlisted address reads as (0) is not listed. -/
def Memory.write (m : Memory) (a : Nat) (v : Byte) : Memory :=
  if v = 0 then m.erase a else (m.erase a).insert a v

/-- MemRead(addr, n): n consecutive bytes (spec/00_scope.md R12). -/
def Memory.readBytes (m : Memory) (a : Nat) : Nat → List Byte
  | 0 => []
  | n + 1 => m.read a :: Memory.readBytes m (a + 1) n

/-- MemWrite(addr, n, v): the bytes of a sequence at consecutive addresses (spec/00_scope.md R12). -/
def Memory.writeBytes (m : Memory) (a : Nat) : List Byte → Memory
  | [] => m
  | b :: bs => Memory.writeBytes (m.write a b) (a + 1) bs

/-- The canonical form: addresses strictly rising, and no cell equal to what an unlisted address reads as. -/
abbrev Memory.wf (m : Memory) : Prop :=
  m.Pairwise (fun c d => c.1 < d.1) ∧ ∀ c ∈ m, c.2 ≠ 0

/-! ### The buffer windows (R41, R53) -/

/-- The window base of a buffer. -/
def Buffer.base : Buffer → Nat
  | .payload => 0x10000
  | .txbuf => 0x20000
  | .rxbuf => 0x30000
  | .rdata => 0x40000

/-- The size of a buffer: PAYLOAD_SIZE, TXBUF_SIZE, RXBUF_SIZE and RDATA_SIZE (spec/00_scope.md R9). -/
def Buffer.size : Buffer → Nat
  | .payload => Config.maxPlen
  | .txbuf => Config.maxPlen + Config.hdrLen
  | .rxbuf => Config.maxPlen + (Config.ipHdrMax + Config.hdrLen)
  | .rdata => Config.maxPlen + Config.ipHdrMax

/-- Whether the host may write the buffer (R41). -/
def Buffer.hostWritable : Buffer → Bool
  | .payload => true
  | .txbuf => false
  | .rxbuf => true
  | .rdata => false

/-- Byte i of a buffer: PAY[i], TX[i], RX[i] or RD[i] (spec/00_scope.md R12). -/
def bufByte (b : Buffer) (i : Nat) (s : State) : Byte := s.mem.read (b.base + i)

/-- Bytes i to i + n - 1 of a buffer. -/
def bufBytes (b : Buffer) (i n : Nat) (s : State) : List Byte := s.mem.readBytes (b.base + i) n

/-- Writes a byte sequence into a buffer from index i on. -/
def bufWrite (b : Buffer) (i : Nat) (bs : List Byte) (s : State) : State :=
  { s with mem := s.mem.writeBytes (b.base + i) bs }

/-! ### The register window (R21, R54) -/

/-- The offset of a register in the register window (R21). -/
def Reg.offset : Reg → Nat
  | .cmd => 0x000
  | .status => 0x004
  | .arg => 0x008
  | .dest => 0x00C
  | .id => 0x010
  | .seq => 0x014
  | .plen => 0x018
  | .family => 0x01C
  | .csr => 0x020
  | .off => 0x024
  | .txlen => 0x028
  | .rxlen => 0x02C
  | .rtype => 0x030
  | .rcode => 0x034
  | .rcsum => 0x038
  | .rid => 0x03C
  | .rseq => 0x040
  | .rdlen => 0x044
  | .rtotlen => 0x048
  | .rsrc => 0x04C
  | .txcnt => 0x050
  | .saddr => 0x054

/-- The registers, in the order of R21. -/
def Reg.all : List Reg :=
  [.cmd, .status, .arg, .dest, .id, .seq, .plen, .family, .csr, .off, .txlen, .rxlen,
    .rtype, .rcode, .rcsum, .rid, .rseq, .rdlen, .rtotlen, .rsrc, .txcnt, .saddr]

/-- The register at an offset of the register window. -/
def Reg.atOffset (a : Nat) : Option Reg := Reg.all.find? fun r => r.offset == a

/-- The value a host reads from a register, zero-extended to 32 bits (R54). -/
def readReg (r : Reg) (s : State) : Word :=
  match r with
  | .cmd => s.cmd
  | .status => s.status.word
  | .arg => s.arg
  | .dest => s.dest
  | .id => s.id.setWidth 32
  | .seq => s.seq.setWidth 32
  | .plen => s.plen.setWidth 32
  | .family => s.family.setWidth 32
  | .csr => s.csr.setWidth 32
  | .off => s.off.setWidth 32
  | .txlen => s.txlen.setWidth 32
  | .rxlen => s.rxlen.setWidth 32
  | .rtype => s.rtype.setWidth 32
  | .rcode => s.rcode.setWidth 32
  | .rcsum => s.rcsum.setWidth 32
  | .rid => s.rid.setWidth 32
  | .rseq => s.rseq.setWidth 32
  | .rdlen => s.rdlen.setWidth 32
  | .rtotlen => s.rtotlen.setWidth 32
  | .rsrc => s.rsrc
  | .txcnt => s.txcnt.setWidth 32
  | .saddr => s.saddr

/-- A host write to a register other than CMD: the value truncated to the register's bits (R54), none where the
register's access code or a bound on the value forbids it (R21, R28, R36). The bounds of PLEN and RXLEN are checked on the whole
32-bit value written, before it is truncated (DEDUCED, safe, log entry 6). -/
def writeReg (r : Reg) (v : Word) (s : State) : Option State :=
  match r with
  | .arg => some { s with arg := v }
  | .dest => some { s with dest := v }
  | .plen =>
    if s.status.phase = .noSession ∧ v.toNat ≤ Config.maxPlen then
      some { s with plen := v.setWidth 16 }
    else none
  | .off => some { s with off := v.setWidth 16 }
  | .rxlen =>
    if v.toNat ≤ Buffer.rxbuf.size then some { s with rxlen := v.setWidth 16 }
    else none
  | .cmd | .status | .id | .seq | .family | .csr | .txlen | .rtype | .rcode | .rcsum | .rid
  | .rseq | .rdlen | .rtotlen | .rsrc | .txcnt | .saddr => none

/-! ### Steps of a command -/

/-- Command issue (R152): the word goes to CMD, and DONE, ERR and ECODE are cleared. -/
def recordIssue (w : Word) (s : State) : State :=
  { s with cmd := w, status := s.status.issued }

/-- Complete(e) (R153): the last action of the step that ends a command; e = NONE is success. -/
def complete (e : ErrorCode) (s : State) : State :=
  { s with status := s.status.completed e, hstep := .idle }

/-- The end of a command in its issue step: Complete(NONE), or raise e() (R12, R153). An error is a next state with
its code in STATUS; nothing stops (R157). -/
def finish (e : ErrorCode) (s : State) : Host.Outcome State Fault Refusal := .next (complete e s)

/-- A session command's write of PHASE (R25). -/
def setPhase (p : Phase) (s : State) : State := { s with status := s.status.withPhase p }

/-- BUSY ← 1. -/
def setBusy (s : State) : State := { s with status := s.status.waiting }

/-- A request to the host (R120), after which the command waits at h.STEP = p. -/
def ask (p : BusyStep) (r : HostRequest) (s : State) : State :=
  { s with hstep := p, outbox := s.outbox ++ [r] }

/-- A notification to the host, for which the block does not wait: Host.close() (R120, R138). -/
def notify (r : HostRequest) (s : State) : State := { s with outbox := s.outbox ++ [r] }

/-! ### The host's side -/

/-- Records HostViolation(action) and changes no block state (R160). -/
def violate (a : HostAction) (s : State) : State := { s with violations := s.violations ++ [a] }

/-- Hands the value of a read to the host. A read changes no block state (R58). -/
def observe (v : Word) (s : State) : State := { s with readData := s.readData ++ [v] }

end Sys2Proof.Machine
end

