-- ==== Sys2Proof/Machine/Operands.lean ====
section
/-! DEFINITION. Bytes and halves (spec/00_scope.md R11, spec/20_memory.md R50) and the operands of the commands: the
views TXV and RXV (R13), the payload (R28), the fields of ARG (R32) and the receive capacity (R130). -/

namespace Sys2Proof.Machine

/-- be16(h, l) = (h << 8) | l: the more significant byte first. -/
def be16 (h l : Byte) : Half := h.setWidth 16 <<< 8 ||| l.setWidth 16

/-- hi8(v) = v[15:8]. -/
def hi8 (v : Half) : Byte := v.extractLsb' 8 8

/-- lo8(v) = v[7:0]. -/
def lo8 (v : Half) : Byte := v.extractLsb' 0 8

/-- ARG[31:16]: ENCODE's identifier. -/
def argHigh (s : State) : Half := s.arg.extractLsb' 16 16

/-- ARG[15:0]: ENCODE's sequence, CONSTRUCT's payload length. -/
def argLow (s : State) : Half := s.arg.extractLsb' 0 16

/-- PAY[0..PLEN): the payload. -/
def payload (s : State) : List Byte := bufBytes .payload 0 s.plen.toNat s

/-- TXV = TX[0..TXLEN). -/
def txView (s : State) : List Byte := bufBytes .txbuf 0 s.txlen.toNat s

/-- RXV = RX[OFF..RXLEN), empty when OFF ≥ RXLEN. -/
def rxView (s : State) : List Byte := bufBytes .rxbuf s.off.toNat (s.rxlen.toNat - s.off.toNat) s

/-- The view SRC selects, read when the command executes (R13). -/
def viewBytes (v : View) (s : State) : List Byte :=
  match v with
  | .tx => txView s
  | .rx => rxView s

/-- RXCAP = 68 + PLEN (R130). -/
def rxCapacity (s : State) : Nat := Config.ipHdrMax + Config.hdrLen + s.plen.toNat

/-- 4 × (b & 0xF): the length of an IPv4 header whose first byte is b, 0 to 60 (R110). -/
def headerLength (b : Byte) : Half := 4 * (b.extractLsb' 0 4).setWidth 16

end Sys2Proof.Machine
end

