-- ==== Sys2Proof/Machine/Checksum.lean ====
section
/-! DEFINITION. The checksum engine (spec/40_checksum.md): Checksum(s) and the command CSUM. -/

namespace Sys2Proof.Machine

/-- The consecutive 2-byte big-endian words of a byte sequence. A trailing odd byte belongs to no word and is
discarded: ODD_TAIL = DISCARD (R91). -/
def wordsOf : List Byte → List Half
  | h :: l :: bs => be16 h l :: wordsOf bs
  | [_] => []
  | [] => []

/-- The counted words: all but word 1, the checksum field (R80, R90). -/
def countedWords : List Half → List Half
  | w :: _ :: ws => w :: ws
  | [w] => [w]
  | [] => []

/-- The 32-bit sum of words (R90). -/
def sumWords (ws : List Half) : Word := ws.foldl (fun acc w => acc + w.setWidth 32) 0

/-- One pass of the fold: acc[15:0] + acc[31:16] (R90). -/
def foldPass (acc : Word) : Word :=
  (acc.extractLsb' 0 16).setWidth 32 + (acc.extractLsb' 16 16).setWidth 32

/-- The fold loop "while acc[31:16] != 0", given how many passes it may take. -/
def foldLoop : Nat → Word → Word
  | 0, acc => acc
  | n + 1, acc => if acc.extractLsb' 16 16 = 0 then acc else foldLoop n (foldPass acc)

/-- The folded 16-bit sum F of words. Two passes end the loop from every 32-bit sum (R93; DEDUCED, safe, log
entry 9). -/
def foldedSum (ws : List Half) : Half := (foldLoop 2 (sumWords ws)).extractLsb' 0 16

/-- Checksum(s) (R90): the one's complement of the folded sum of the counted words. -/
def checksum (bs : List Byte) : Half := ~~~ foldedSum (countedWords (wordsOf bs))

/-- CSUM: CSR ← Checksum(V) (R92). -/
def execCsum (src : View) (s : State) : Host.Outcome State Fault Refusal :=
  finish .none { s with csr := checksum (viewBytes src s) }

end Sys2Proof.Machine
end

