-- ==== Sys2Proof/Machine/Codec.lean ====
section
/-! DEFINITION. The packet codec (spec/41_codec.md): ENCODE, PATCH, DECODE and STRIP. -/

namespace Sys2Proof.Machine

/-- The 8 header bytes of a message with a zero checksum field (spec/30_encoding.md R79, R100). -/
def echoHeader (type : Byte) (id sq : Half) : List Byte :=
  [type, 0, 0, 0, hi8 id, lo8 id, hi8 sq, lo8 sq]

/-- EncodeInto(t, id, sq, n) with n = PLEN (R100): the header and the payload into TXBUF, and TXLEN ← 8 + PLEN. -/
def encodeInto (type : Byte) (id sq : Half) (s : State) : State :=
  { bufWrite .txbuf 0 (echoHeader type id sq ++ payload s) s with
    txlen := BitVec.ofNat 16 (Config.hdrLen + s.plen.toNat) }

/-- CSR into message bytes 2 and 3, big-endian (R103, R127). -/
def patchChecksum (s : State) : State := bufWrite .txbuf 2 [hi8 s.csr, lo8 s.csr] s

/-- What DecodeFrom(V) writes: the header fields by position (spec/30_encoding.md R79), the data length, and a copy of
the data in RDATA (R104, R106). -/
def writeReply (message : List Byte) (s : State) : State :=
  { bufWrite .rdata 0 (message.drop 8) s with
    rtype := message.getD 0 0
    rcode := message.getD 1 0
    rcsum := be16 (message.getD 2 0) (message.getD 3 0)
    rid := be16 (message.getD 4 0) (message.getD 5 0)
    rseq := be16 (message.getD 6 0) (message.getD 7 0)
    rdlen := BitVec.ofNat 16 (message.length - 8) }

/-- DecodeFrom(V) (R104): none is MalformedInput, for a message of fewer than 8 bytes, before any write. -/
def decodeFrom (message : List Byte) (s : State) : Option State :=
  if message.length < Config.hdrLen then none else some (writeReply message s)

/-- ENCODE: a message from ARG and PAYLOAD (R100). -/
def execEncode (type : Byte) (s : State) : Host.Outcome State Fault Refusal :=
  finish .none (encodeInto type (argHigh s) (argLow s) s)

/-- PATCH: MalformedInput where TXBUF holds no message (R103). -/
def execPatch (s : State) : Host.Outcome State Fault Refusal :=
  if s.txlen.toNat < Config.hdrLen then finish .malformedInput s
  else finish .none (patchChecksum s)

/-- DECODE (R104). -/
def execDecode (src : View) (s : State) : Host.Outcome State Fault Refusal :=
  match decodeFrom (viewBytes src s) s with
  | some s' => finish .none s'
  | none => finish .malformedInput s

/-- STRIP: OFF ← 4 × (RX[0] & 0xF), MalformedInput where RXBUF holds no first byte (R110). -/
def execStrip (s : State) : Host.Outcome State Fault Refusal :=
  if s.rxlen = 0 then finish .malformedInput s
  else finish .none { s with off := headerLength (bufByte .rxbuf 0 s) }

end Sys2Proof.Machine
end

