-- ==== Sys2Proof/Machine/Session.lean ====
section
/-! DEFINITION. The echo session (spec/42_session.md): the issue steps of CONSTRUCT, SEND, RECV and CLOSE, and the
host-answer steps. -/

namespace Sys2Proof.Machine

/-! ### CONSTRUCT -/

/-- What h.PEND_ID, h.PEND_PLEN and h.PEND_ADDR hold. -/
def pending (s : State) : Pending := { id := s.pendId, plen := s.pendPlen, addr := s.pendAddr }

/-- Keeps, at the start of a CONSTRUCT, what h.PEND_* held before it (log entry 16). -/
def keepPending (s : State) : State := { s with pendBefore := some (pending s) }

/-- Puts back what h.PEND_* held before the CONSTRUCT in progress: a failing command writes nothing but what
spec/60_exceptions.md R154 lists (DEDUCED, log entry 16). -/
def restorePending (s : State) : State :=
  { s with
    pendId := (s.pendBefore.getD (pending s)).id
    pendPlen := (s.pendBefore.getD (pending s)).plen
    pendAddr := (s.pendBefore.getD (pending s)).addr
    pendBefore := none }

/-- The end of a CONSTRUCT that the host fails (R123, R154). -/
def constructFail (e : ErrorCode) (s : State) : State := complete e (restorePending s)

/-- CONSTRUCT_issue (R122), its checks in the order of spec/60_exceptions.md R155. IPv6 fails at once, before any host
request. -/
def execConstruct (fam : Family) (plp : Bool) (id : Half) (s : State) :
    Host.Outcome State Fault Refusal :=
  if s.status.phase ≠ .noSession then finish .sessionState s
  else if fam = .v6 then finish .resolution s
  else if plp = true ∧ ¬ (argLow s).toNat ≤ Config.maxPlen then finish .illegalCommand s
  else
    .next (ask .constructResolve (.resolve s.dest 0) (setBusy
      { keepPending s with pendId := id, pendPlen := if plp then argLow s else Config.defaultPlen }))

/-- CONSTRUCT_resolved (R123). -/
def constructResolved (addr : Option Word) (s : State) : State :=
  match addr with
  | none => constructFail .resolution s
  | some a => ask .constructSocket (.socket 0) { s with pendAddr := a }

/-- CONSTRUCT_socket (R123): the session opens, and PAY[0..PLEN) is zero-filled. On Fail nothing is held (R124). -/
def constructSocket (ok : Bool) (s : State) : State :=
  if ok then
    complete .none (setPhase .opened
      (bufWrite .payload 0 (List.replicate s.pendPlen.toNat 0)
        { s with
          sock := .held
          id := s.pendId
          seq := 0
          plen := s.pendPlen
          family := 0
          saddr := s.pendAddr
          pendBefore := none }))
  else constructFail .socketInit s

/-! ### SEND -/

/-- The type of a request: 8 on IPv4; 128 is never reached (R127). -/
def requestType (s : State) : Byte :=
  if s.family = 0 then Config.echoRequestV4 else Config.echoRequestV6

/-- The message of a SEND: encode, checksum, patch (R127). -/
def prepareRequest (s : State) : State :=
  let encoded := encodeInto (requestType s) s.id s.seq s
  patchChecksum { encoded with csr := checksum (txView encoded) }

/-- SEND_issue (R127). -/
def execSend (s : State) : Host.Outcome State Fault Refusal :=
  if s.status.phase ≠ .opened then finish .sessionState s
  else
    let ready := prepareRequest s
    .next (ask .sendTx (.sendto (txView ready) ready.saddr) (setBusy (setPhase .sending ready)))

/-- SEND_answer (R128): every Ok(n) is a success. -/
def sendAnswer (count : Option Nat) (s : State) : State :=
  match count with
  | none => complete .transport (setPhase .opened s)
  | some n =>
    complete .none (setPhase .opened { s with txcnt := BitVec.ofNat 16 n, seq := s.seq + 1 })

/-! ### RECV -/

/-- RECV_issue (R131). -/
def execRecv (s : State) : Host.Outcome State Fault Refusal :=
  if s.status.phase ≠ .opened then finish .sessionState s
  else
    .next (ask .recvWait (.recvfrom (rxCapacity s)) (setBusy (setPhase .awaiting s)))

/-- RECV_fail(e) (R133), and the Fail answer of R132: the session stays open (R135). -/
def recvFail (e : ErrorCode) (s : State) : State := complete e (setPhase .opened s)

/-- The first part of RECV_datagram (R133): the datagram into RXBUF, truncated to the capacity (R130). -/
def storeDatagram (datagram : List Byte) (s : State) : State :=
  { bufWrite .rxbuf 0 (datagram.take (rxCapacity s)) s with
    rxlen := BitVec.ofNat 16 (min datagram.length (rxCapacity s)) }

/-- The strip of RECV_datagram (R133): 4 × (RX[0] & 0xF) on IPv4, 0 on IPv6 (never reached). -/
def stripDatagram (s : State) : State :=
  { s with off := if s.family = 0 then headerLength (bufByte .rxbuf 0 s) else 0 }

/-- OFF after an empty datagram, which has no first byte to strip by: it is overwritten (spec/70_reset_and_hazards.md
R179), with a free value (log entry 17). -/
def freeOffset (s : State) : State :=
  { s with
    off := Config.emptyDatagramOff s.freeCount s.off (bufByte .rxbuf 0 s)
    freeCount := s.freeCount + 1 }

/-- The identifier field of the enclosed message: be16(RX[OFF+4], RX[OFF+5]) (R133). -/
def enclosedId (s : State) : Half :=
  be16 (bufByte .rxbuf (s.off.toNat + 4) s) (bufByte .rxbuf (s.off.toNat + 5) s)

/-- RECV_accept(n, src) (R134), for a datagram of n stored bytes whose identifier matches. -/
def recvAccept (n : Nat) (src : Word) (s : State) : State :=
  match decodeFrom (bufBytes .rxbuf s.off.toNat (n - s.off.toNat) s) s with
  | none => recvFail .malformedInput s
  | some s' =>
    complete .none (setPhase .opened { s' with rtotlen := BitVec.ofNat 16 n, rsrc := src })

/-- The filter of RECV_datagram (R133): a datagram without an identifier field is malformed, one with another
identifier is discarded and the next one requested, one with this session's is accepted. -/
def recvFilter (n : Nat) (src : Word) (s : State) : State :=
  if n < s.off.toNat + 6 then recvFail .malformedInput s
  else if enclosedId s ≠ s.id then ask .recvWait (.recvfrom (rxCapacity s)) s
  else recvAccept n src s

/-- RECV_datagram(d, src) (R133): store, strip, filter. On IPv4 an empty datagram has no first byte: it is
malformed, and what it leaves in OFF is a free value (DESIGN CHOICE, log entry 17). -/
def recvDatagram (datagram : List Byte) (src : Word) (s : State) : State :=
  let n := min datagram.length (rxCapacity s)
  let stored := storeDatagram datagram s
  if stored.family = 0 ∧ n = 0 then recvFail .malformedInput (freeOffset stored)
  else recvFilter n src (stripDatagram stored)

/-! ### CLOSE -/

/-- CLOSE (R138). ID, SEQ, PLEN, FAMILY and SADDR keep their values. -/
def execClose (s : State) : Host.Outcome State Fault Refusal :=
  if s.status.phase ≠ .opened then finish .sessionState s
  else finish .none (setPhase .noSession { notify .close s with sock := .none })

/-! ### Host answers -/

/-- Whether R120 allows the answer to the request the block waits on: an answer of the pending request's own kind, and
a transmit count of at most the message length. An answer names its request by its kind alone, so one given late to a
request that a reset abandoned is taken as the answer to a new request of the same kind (DESIGN CHOICE, log entry 18). -/
def answerAllowed (a : HostAnswer) (s : State) : Bool :=
  match a with
  | .resolveOk _ => s.hstep == .constructResolve
  | .resolveFail => s.hstep == .constructResolve
  | .socketOk => s.hstep == .constructSocket
  | .socketFail => s.hstep == .constructSocket
  | .sendtoOk n => s.hstep == .sendTx && decide (n ≤ s.txlen.toNat)
  | .sendtoFail => s.hstep == .sendTx
  | .recvfromOk _ _ => s.hstep == .recvWait
  | .recvfromFail => s.hstep == .recvWait

/-- The step that an allowed answer runs (R123, R128, R132). -/
def takeAnswer (a : HostAnswer) (s : State) : State :=
  match a with
  | .resolveOk addr => constructResolved (some addr) s
  | .resolveFail => constructResolved none s
  | .socketOk => constructSocket true s
  | .socketFail => constructSocket false s
  | .sendtoOk n => sendAnswer (some n) s
  | .sendtoFail => sendAnswer none s
  | .recvfromOk d src => recvDatagram d src s
  | .recvfromFail => recvFail .transport s

/-- A host answer (R120), consumed by the step that h.STEP waits at. Any other answer is a host violation
(spec/60_exceptions.md R160): none is pending, or one of another kind (DEDUCED, safe, log entry 5), or a transmit count
above the message length (DESIGN CHOICE, safe, log entry 4). -/
def hostAnswer (a : HostAnswer) (s : State) : State :=
  if answerAllowed a s then takeAnswer a s else violate (.answer a) s

end Sys2Proof.Machine
end

