-- ==== Sys2Proof/Machine/Dispatch.lean ====
section
/-! DEFINITION. One arm per command: the dispatch of spec/60_exceptions.md R152. -/

namespace Sys2Proof.Machine

/-- The issue step of a command, after its word was found legal (R152). -/
def exec (i : Instr) (s : State) : Host.Outcome State Fault Refusal :=
  match i with
  | .csum src => Sys2Proof.Machine.execCsum src s
  | .encode type => Sys2Proof.Machine.execEncode type s
  | .patch => Sys2Proof.Machine.execPatch s
  | .decode src => Sys2Proof.Machine.execDecode src s
  | .strip => Sys2Proof.Machine.execStrip s
  | .construct fam plp id => Sys2Proof.Machine.execConstruct fam plp id s
  | .send => Sys2Proof.Machine.execSend s
  | .recv => Sys2Proof.Machine.execRecv s
  | .close => Sys2Proof.Machine.execClose s

end Sys2Proof.Machine
end

