-- ==== Sys2Proof/WellFormed.lean ====
section
/-! DEFINITION. Well-formedness. An Instr holds exactly the free fields of its row of spec/30_encoding.md R73, each
in a type of the field's own width, so every Instr is well formed; an assembler line holds written numbers, which
R76 bounds. -/

namespace Sys2Proof

/-- Every term of Instr is well formed: its types admit exactly the field values R73 admits (View and Family one bit,
type 8 bits, plp one bit, id 16 bits). Kept as a match with an arm per command, so that a command with a check of its
own would need one here. -/
def Instr.wellFormed : Instr → Bool
  | .csum _ => true
  | .encode _ => true
  | .patch => true
  | .decode _ => true
  | .strip => true
  | .construct _ _ _ => true
  | .send => true
  | .recv => true
  | .close => true

/-- R76: "`<type>` is in 0..255 and `<id>` is in 0..65535". -/
def AsmLine.wellFormed : AsmLine → Bool
  | .csum _ => true
  | .encode type => decide (type ≤ 255)
  | .patch => true
  | .decode _ => true
  | .strip => true
  | .construct _ _ id => decide (id ≤ 65535)
  | .send => true
  | .recv => true
  | .close => true

end Sys2Proof
end

