-- ==== Sys2Proof/Decode.lean ====
section
/-! DEFINITION. Decoding and encoding of command words (spec/30_encoding.md R70 to R76), and the opcode table of R73
as data. -/

namespace Sys2Proof

/-! ### The fields of a command word (R70, R71) -/

/-- OP = w[3:0]. -/
def opField (w : Word) : BitVec 4 := w.extractLsb' 0 4

/-- RSV = w[7:4]. -/
def rsvField (w : Word) : BitVec 4 := w.extractLsb' 4 4

/-- B = w[15:8]. -/
def bField (w : Word) : Byte := w.extractLsb' 8 8

/-- H = w[31:16]. -/
def hField (w : Word) : Half := w.extractLsb' 16 16

/-- SRC = w[8]: 0 selects TXV, 1 selects RXV. -/
def srcField (w : Word) : View := if w.getLsbD 8 then .rx else .tx

/-- FAM = w[8]: 0 is IPv4, 1 is IPv6. -/
def famField (w : Word) : Family := if w.getLsbD 8 then .v6 else .v4

/-- PLP = w[9]. -/
def plpField (w : Word) : Bool := w.getLsbD 9

/-- The three ways a word is illegal (R74), by name. -/
inductive DecodeError where
  /-- OP = 0x0 or OP in 0xA to 0xF. -/
  | reservedOpcode
  /-- RSV ≠ 0. -/
  | reservedField
  /-- A B or H bit that R73 requires to be 0 is 1. -/
  | fixedBitSet
  deriving DecidableEq, Repr

/-- The instruction, if B[7:1] = 0 and H = 0 (rows CSUM and DECODE). -/
def onlySrc (w : Word) (i : Instr) : Except DecodeError Instr :=
  if w.extractLsb' 9 7 = 0#7 ∧ hField w = 0#16 then .ok i else .error .fixedBitSet

/-- The instruction, if B = 0 and H = 0 (rows without free fields). -/
def noFields (w : Word) (i : Instr) : Except DecodeError Instr :=
  if bField w = 0#8 ∧ hField w = 0#16 then .ok i else .error .fixedBitSet

/-- Decoding, total on every word (R70: "A decoder reads one word and has the whole command"). A word that breaks
several rules of R74 is refused under the first of them in the order below; the block does the same for all three
(R161), so the order shows nowhere. -/
def decode (w : Word) : Except DecodeError Instr :=
  if rsvField w ≠ 0#4 then .error .reservedField
  else if opField w = 1#4 then onlySrc w (.csum (srcField w))
  else if opField w = 2#4 then
    if hField w = 0#16 then .ok (.encode (bField w)) else .error .fixedBitSet
  else if opField w = 3#4 then noFields w .patch
  else if opField w = 4#4 then onlySrc w (.decode (srcField w))
  else if opField w = 5#4 then noFields w .strip
  else if opField w = 6#4 then
    if w.extractLsb' 10 6 = 0#6 then .ok (.construct (famField w) (plpField w) (hField w))
    else .error .fixedBitSet
  else if opField w = 7#4 then noFields w .send
  else if opField w = 8#4 then noFields w .recv
  else if opField w = 9#4 then noFields w .close
  else .error .reservedOpcode

/-! ### Encoding -/

/-- The bit of a view operand. -/
def View.bit : View → BitVec 1
  | .tx => 0
  | .rx => 1

/-- The bit of an address family. -/
def Family.bit : Family → BitVec 1
  | .v4 => 0
  | .v6 => 1

/-- A command word from its fields, RSV = 0 (R70). -/
def packWord (h : Half) (b : Byte) (op : BitVec 4) : Word :=
  h.setWidth 32 <<< 16 ||| b.setWidth 32 <<< 8 ||| op.setWidth 32

/-- The word of a command (R73). -/
def encode : Instr → Word
  | .csum src => packWord 0#16 (0#7 ++ src.bit) 1#4
  | .encode type => packWord 0#16 type 2#4
  | .patch => packWord 0#16 0#8 3#4
  | .decode src => packWord 0#16 (0#7 ++ src.bit) 4#4
  | .strip => packWord 0#16 0#8 5#4
  | .construct fam plp id => packWord id (0#6 ++ (BitVec.ofBool plp ++ fam.bit)) 6#4
  | .send => packWord 0#16 0#8 7#4
  | .recv => packWord 0#16 0#8 8#4
  | .close => packWord 0#16 0#8 9#4

/-! ### The opcode table (R73) -/

/-- A row of R73: a word is this command's exactly when it has the pattern under the mask. -/
structure OpcodeRow where
  mnemonic : String
  pattern : Word
  mask : Word
  deriving DecidableEq, Repr

/-- The nine rows of R73. -/
def opcodeRows : List OpcodeRow :=
  [ ⟨"CSUM", 0x00000001, 0xFFFFFEFF⟩,
    ⟨"ENCODE", 0x00000002, 0xFFFF00FF⟩,
    ⟨"PATCH", 0x00000003, 0xFFFFFFFF⟩,
    ⟨"DECODE", 0x00000004, 0xFFFFFEFF⟩,
    ⟨"STRIP", 0x00000005, 0xFFFFFFFF⟩,
    ⟨"CONSTRUCT", 0x00000006, 0x0000FCFF⟩,
    ⟨"SEND", 0x00000007, 0xFFFFFFFF⟩,
    ⟨"RECV", 0x00000008, 0xFFFFFFFF⟩,
    ⟨"CLOSE", 0x00000009, 0xFFFFFFFF⟩ ]

/-- The word matches the row. -/
def OpcodeRow.matchesWord (r : OpcodeRow) (w : Word) : Bool := w &&& r.mask == r.pattern

/-- R73: "A word is legal exactly when `(w & mask) = match` for its row". -/
def legalWord (w : Word) : Bool := opcodeRows.any fun r => r.matchesWord w

/-- The mnemonic of a command, as the opcode table spells it. -/
def Instr.mnemonic : Instr → String
  | .csum _ => "CSUM"
  | .encode _ => "ENCODE"
  | .patch => "PATCH"
  | .decode _ => "DECODE"
  | .strip => "STRIP"
  | .construct _ _ _ => "CONSTRUCT"
  | .send => "SEND"
  | .recv => "RECV"
  | .close => "CLOSE"

/-! ### The assembler (R76) -/

/-- The command a line stands for. -/
def AsmLine.instr : AsmLine → Instr
  | .csum src => .csum src
  | .encode type => .encode (BitVec.ofNat 8 type)
  | .patch => .patch
  | .decode src => .decode src
  | .strip => .strip
  | .construct withLength fam id => .construct fam withLength (BitVec.ofNat 16 id)
  | .send => .send
  | .recv => .recv
  | .close => .close

/-- The word of a line, none where a number is out of its range (R76). -/
def assemble (l : AsmLine) : Option Word :=
  if l.wellFormed then some (encode l.instr) else none

/-- How a line is written (R76), with its numbers in decimal. -/
def AsmLine.text : AsmLine → String
  | .csum .tx => "csum tx"
  | .csum .rx => "csum rx"
  | .encode type => "encode " ++ toString type
  | .patch => "patch"
  | .decode .tx => "decode tx"
  | .decode .rx => "decode rx"
  | .strip => "strip"
  | .construct withLength fam id =>
    (if withLength then "construct.p " else "construct ")
      ++ (match fam with | .v4 => "v4, " | .v6 => "v6, ") ++ toString id
  | .send => "send"
  | .recv => "recv"
  | .close => "close"

/-! ### What the host of the pipeline asks the decoder -/

/-- The instruction the decoder reads from a command whose nbits bits are w, bit 0 the least significant of the one
32-bit word; none where the decoder refuses, or where w has a bit above the word. A command word is one register value
and has no byte order (spec/20_memory.md R52). -/
def decodeTableWord (nbits w : Nat) : Option Instr :=
  if w % 2 ^ nbits < 2 ^ 32 then
    match decode (BitVec.ofNat 32 (w % 2 ^ nbits)) with
    | .ok i => some i
    | .error _ => none
  else none

end Sys2Proof
end

