-- ==== Sys2Proof/Machine/HostPort.lean ====
section
/-! DEFINITION. The host port (spec/20_memory.md R53 to R59), reset (spec/70_reset_and_hazards.md R170), and the host
notation and pseudo-commands of spec/30_encoding.md R77 and R78. Issuing a command is Machine/Issue.lean. -/

namespace Sys2Proof.Machine

/-! ### The address map -/

/-- What a legal access reaches. -/
inductive Place where
  | reg (r : Reg)
  | byte (b : Buffer) (i : Nat)
  deriving DecidableEq, Repr

/-- The byte of a buffer at an address, none where the address lies outside the buffer. -/
def Buffer.atAddr (b : Buffer) (a : Nat) : Option Place :=
  if b.base ≤ a ∧ a - b.base < b.size then some (.byte b (a - b.base)) else none

/-- The place an access of size bytes at an address reaches (R53), none where no such access is legal: in the register
window, 4 bytes at the offset of a register (every one a multiple of 4, R54); in a buffer's window, 1 byte inside the
buffer (R55); nowhere else. -/
def locate (addr : HostAddr) (size : Nat) : Option Place :=
  if addr.toNat < 0x10000 then
    if size = 4 then (Reg.atOffset addr.toNat).map Place.reg else none
  else if size = 1 then
    (Buffer.payload.atAddr addr.toNat).or ((Buffer.txbuf.atAddr addr.toNat).or
      ((Buffer.rxbuf.atAddr addr.toNat).or (Buffer.rdata.atAddr addr.toNat)))
  else none

/-! ### Accesses -/

/-- A host read (R54, R55, R58), allowed at all times (R59). A byte is returned zero-extended. -/
def hostRead (addr : HostAddr) (size : Nat) (s : State) : State :=
  match locate addr size with
  | some (.reg r) => observe (readReg r s) s
  | some (.byte b i) => observe ((bufByte b i s).setWidth 32) s
  | none => violate (.read addr size) s

/-- A host write of a byte to a buffer (R55): none where the host may not write the buffer. -/
def writeByte (b : Buffer) (i : Nat) (v : Word) (s : State) : Option State :=
  if b.hostWritable then some (bufWrite b i [v.setWidth 8] s) else none

/-- A host write to a place other than CMD, none where it is a host violation (R54, R55). -/
def writePlace (p : Place) (v : Word) (s : State) : Option State :=
  match p with
  | .reg r => writeReg r v s
  | .byte b i => writeByte b i v s

/-- A host write that issues no command: any write while BUSY = 1 is a violation (R59), as is one that reaches no
place or is not allowed there. -/
def hostStore (addr : HostAddr) (size : Nat) (v : Word) (s : State) : State :=
  if s.status.busy then violate (.write addr size v) s
  else
    match (locate addr size).bind fun p => writePlace p v s with
    | some s' => s'
    | none => violate (.write addr size v) s

/-- Whether a host write issues a command: a legal write to CMD while BUSY = 0 (spec/60_exceptions.md R152). -/
def issues (addr : HostAddr) (size : Nat) (s : State) : Bool :=
  !s.status.busy && decide (locate addr size = some (.reg .cmd))

/-! ### Reset -/

/-- Reset() (spec/70_reset_and_hazards.md R170): every register, buffer byte and hidden field takes its reset value.
The violation record is not cleared, and no host request is made (R171). -/
def hardReset (s : State) : State :=
  { State.reset with
    violations := s.violations
    script := s.script
    outbox := s.outbox
    readData := s.readData
    freeCount := s.freeCount }

/-! ### Host notation (R77) and pseudo-commands (R78) -/

/-- wr REG, v. -/
def wr (r : Reg) (v : Word) : HostAction := .write (BitVec.ofNat 20 r.offset) 4 v

/-- rd REG. -/
def rd (r : Reg) : HostAction := .read (BitVec.ofNat 20 r.offset) 4

/-- wrb BUF[i], byte. -/
def wrb (b : Buffer) (i : Nat) (v : Byte) : HostAction :=
  .write (BitVec.ofNat 20 (b.base + i)) 1 (v.setWidth 32)

/-- A byte read of a buffer. -/
def rdb (b : Buffer) (i : Nat) : HostAction := .read (BitVec.ofNat 20 (b.base + i)) 1

/-- One poll of the host's wait: a read of STATUS. -/
def poll : HostAction := rd .status

/-- Issuing a command. -/
def issueCommand (i : Instr) : HostAction := wr .cmd (encode i)

/-- build type: encode, csum tx, patch. -/
def build (type : Byte) : List HostAction :=
  [issueCommand (.encode type), issueCommand (.csum .tx), issueCommand .patch]

/-- verify: csum rx. -/
def verify : List HostAction := [issueCommand (.csum .rx)]

/-- setarg id, seq: ARG ← (id << 16) | seq. -/
def setarg (id sq : Half) : List HostAction := [wr .arg (id.setWidth 32 <<< 16 ||| sq.setWidth 32)]

/-- setlen n: the length operand of construct.p. -/
def setlen (n : Half) : List HostAction := [wr .arg (n.setWidth 32)]

end Sys2Proof.Machine
end

