-- ==== Sys2Proof/Machine/Issue.lean ====
section
/-! DEFINITION. Command issue (spec/60_exceptions.md R152) and what one host action does to the block
(spec/20_memory.md R60). -/

namespace Sys2Proof.Machine

/-- Issue(w) (R152): an illegal word is stored in CMD and completes with IllegalCommand, an ordinary completion
(R74, R161); a legal one executes. -/
def issue (w : Word) (s : State) : Host.Outcome State Fault Refusal :=
  match decode w with
  | .error _ => finish .illegalCommand (recordIssue w s)
  | .ok i => exec i (recordIssue w s)

/-- One host action is one step of the block (R57, R60). -/
def runAction (a : HostAction) (s : State) : Host.Outcome State Fault Refusal :=
  match a with
  | .read addr size => .next (hostRead addr size s)
  | .write addr size v =>
    if issues addr size s then issue v s else .next (hostStore addr size v s)
  | .answer ans => .next (hostAnswer ans s)
  | .reset => .next (hardReset s)

/-- The next host action is consumed; with none left nothing happens, and a busy block stays busy
(spec/42_session.md R136, spec/70_reset_and_hazards.md R183; log entry 1). -/
def takeAction (s : State) : Host.Outcome State Fault Refusal :=
  match s.script with
  | [] => .next s
  | a :: rest => runAction a { s with script := rest }

/-- The host action that hands the block the word w: a write to CMD. -/
def commandWrite (w : Nat) : HostAction := .write 0x00000 4 (BitVec.ofNat 32 w)

end Sys2Proof.Machine
end

