-- ==== Sys2Proof/Machine/Step.lean ====
section
/-! DEFINITION. One step of the machine: the next host action and what the block does with it. -/

namespace Sys2Proof.Machine

/-- One step (spec/20_memory.md R60). -/
def step (s : State) : Host.Outcome State Fault Refusal := takeAction s

/-- The state whose very next step is the host's write of a command word to CMD: the block fetches nothing (R63), so a
command comes from the script (log entry 12). -/
def State.withFetchWord (s : State) (nbits w : Nat) : State :=
  { s with script := commandWrite (w % 2 ^ nbits) :: s.script }

end Sys2Proof.Machine
end

