-- ==== Sys2Proof/Machine/Instances.lean ====
section
/-! DEFINITION. Several instances of the block (spec/00_scope.md R19): independent machines, a product. -/

namespace Sys2Proof.Machine

/-- One step of instance k of several; an instance that does not exist does nothing. Every instance has
the one MAX_PLEN of Config (DESIGN CHOICE, log entry 15): the spec does not say whether instances may differ in it. -/
def stepInstance (k : Nat) (blocks : List State) : Host.Outcome (List State) Fault Refusal :=
  match blocks[k]? with
  | none => .next blocks
  | some s =>
    match step s with
    | .next t => .next (blocks.set k t)
    | .fault r => .fault r
    | .refused r => .refused r

end Sys2Proof.Machine
end

