-- ==== Sys2Proof/Safety.lean ====
section
/-! DEFINITION. The terms the claims use: the premise of spec/60_exceptions.md R160, the invariants of
spec/10_state.md R43, what a host violation is, message sums as numbers (spec/40_checksum.md), and how a command's
status reads when it has ended. -/

namespace Sys2Proof.Machine

/-! ### The premise of every claim about the block -/

/-- "no HostViolation recorded" (R160). -/
def Clean (s : State) : Prop := s.violations = []

/-! ### Runs -/

/-- A run of n steps (spec/70_reset_and_hazards.md R183). -/
def runSteps : Nat → State → Host.Outcome State Fault Refusal
  | 0, s => .next s
  | n + 1, s =>
    match step s with
    | .next t => runSteps n t
    | .fault r => .fault r
    | .refused r => .refused r

/-! ### Invariants -/

/-- The invariants of R43 and R23, what links h.STEP to PHASE while a command waits (R25, R42, R122, R127, R131), and
the model's own field pendBefore (log entry 16). -/
structure State.Inv (s : State) : Prop where
  /-- R43: x[FAMILY] = 0. -/
  family_zero : s.family = 0
  /-- R43: x[PLEN] ≤ MAX_PLEN. -/
  plen_le : s.plen.toNat ≤ Config.maxPlen
  /-- R43: x[TXLEN] is 0 or lies in [8, 8 + MAX_PLEN]. -/
  txlen_range : s.txlen.toNat = 0 ∨ (8 ≤ s.txlen.toNat ∧ s.txlen.toNat ≤ 8 + Config.maxPlen)
  /-- R43: x[RXLEN] ≤ RXBUF_SIZE. -/
  rxlen_le : s.rxlen.toNat ≤ Buffer.rxbuf.size
  /-- R43: x[RDLEN] ≤ RDATA_SIZE. -/
  rdlen_le : s.rdlen.toNat ≤ Buffer.rdata.size
  /-- R43: ERR = 1 exactly when ECODE ≠ 0. -/
  err_iff : s.status.err = true ↔ s.status.ecode.code ≠ 0
  /-- R43: BUSY = 1 exactly when h.STEP ≠ idle. -/
  busy_iff : s.status.busy = true ↔ s.hstep ≠ .idle
  /-- R43: h.SOCK = held exactly when PHASE ≠ NOSESSION. -/
  sock_iff : s.sock = .held ↔ s.status.phase ≠ .noSession
  /-- R23: BUSY = 1 and DONE = 1 never hold together. -/
  busy_not_done : ¬ (s.status.busy = true ∧ s.status.done = true)
  /-- SENDING is the phase of a SEND that waits. -/
  sending_iff : s.hstep = .sendTx ↔ s.status.phase = .sending
  /-- AWAITING is the phase of a RECV that waits. -/
  awaiting_iff : s.hstep = .recvWait ↔ s.status.phase = .awaiting
  /-- The model's own record of h.PEND_* is kept exactly while a CONSTRUCT waits (log entry 16). -/
  pend_before : s.pendBefore = none ↔ ¬ (s.hstep = .constructResolve ∨ s.hstep = .constructSocket)
  /-- A CONSTRUCT that waits is in NOSESSION and will commit a payload length the buffers hold. -/
  construct_pending : s.hstep = .constructResolve ∨ s.hstep = .constructSocket →
    s.status.phase = .noSession ∧ s.pendPlen.toNat ≤ Config.maxPlen

/-- The memory is canonical, and lists no address outside the four buffers (R53). -/
def State.MemInv (s : State) : Prop :=
  s.mem.wf ∧ ∀ c ∈ s.mem, ∃ (b : Buffer) (i : Nat), i < b.size ∧ c.1 = b.base + i

/-! ### Host violations (R160) -/

/-- An access of this size at this address is one the host port has: 4 bytes at a register's offset (R54) or 1 byte
inside a buffer (R55). -/
def AccessExists (addr : HostAddr) (size : Nat) : Prop :=
  (size = 4 ∧ ∃ r : Reg, addr.toNat = r.offset) ∨
    (size = 1 ∧ ∃ (b : Buffer) (i : Nat), i < b.size ∧ addr.toNat = b.base + i)

/-- The registers a host may write at some time: W*, RW and RW(N) of R21. -/
def HostWritableReg (r : Reg) : Prop :=
  r = .cmd ∨ r = .arg ∨ r = .dest ∨ r = .plen ∨ r = .off ∨ r = .rxlen

/-- The answer is one that R120 allows to the request the block waits on. -/
def AnswersPending (a : HostAnswer) (s : State) : Prop :=
  match a with
  | .resolveOk _ => s.hstep = .constructResolve
  | .resolveFail => s.hstep = .constructResolve
  | .socketOk => s.hstep = .constructSocket
  | .socketFail => s.hstep = .constructSocket
  | .sendtoOk n => s.hstep = .sendTx ∧ n ≤ s.txlen.toNat
  | .sendtoFail => s.hstep = .sendTx
  | .recvfromOk _ _ => s.hstep = .recvWait
  | .recvfromFail => s.hstep = .recvWait

/-- The list of R160, item by item. -/
def Misuse (a : HostAction) (s : State) : Prop :=
  match a with
  | .read addr size => ¬ AccessExists addr size
  | .write addr size v =>
    s.status.busy = true ∨ ¬ AccessExists addr size
      ∨ (∃ r : Reg, addr.toNat = r.offset ∧ ¬ HostWritableReg r)
      ∨ (∃ b : Buffer, (b = .txbuf ∨ b = .rdata) ∧ b.base ≤ addr.toNat ∧ addr.toNat < b.base + 0x10000)
      ∨ (addr.toNat = Reg.plen.offset ∧
          (s.status.phase ≠ .noSession ∨ Config.maxPlen < v.toNat))
      ∨ (addr.toNat = Reg.rxlen.offset ∧ Buffer.rxbuf.size < v.toNat)
  | .answer ans => ¬ AnswersPending ans s
  | .reset => False

/-! ### Status of a command that has ended -/

/-- STATUS once a command has ended with e in phase p: BUSY = 0, DONE = 1, ERR = 1 exactly when e is an error,
ECODE = e (R153). -/
def endedStatus (e : ErrorCode) (p : Phase) : Status :=
  { busy := false, done := true, err := decide (e ≠ .none), ecode := e, phase := p }

/-! ### Views, byte by byte -/

/-- n bytes of a buffer from index i on, as the spec writes them: B[i], B[i + 1], ... -/
def bufferSlice (b : Buffer) (i n : Nat) (s : State) : List Byte :=
  (List.range n).map fun k => s.mem.read (b.base + (i + k))

/-- TXV, or RXV (R13). -/
def viewSlice (v : View) (s : State) : List Byte :=
  match v with
  | .tx => bufferSlice .txbuf 0 s.txlen.toNat s
  | .rx => bufferSlice .rxbuf s.off.toNat (s.rxlen.toNat - s.off.toNat) s

/-! ### Sums as numbers (spec/40_checksum.md) -/

/-- The sum over the word indices k < |s| / 2 that R90 adds: every one but k = 1. -/
def countedSum (bs : List Byte) : Nat :=
  ((List.range (bs.length / 2)).map fun k =>
    if k ≠ 1 then (be16 (bs.getD (2 * k) 0) (bs.getD (2 * k + 1) 0)).toNat else 0).sum

/-- The sum of all words, word 1 included (R95). -/
def fullSum (bs : List Byte) : Nat :=
  ((List.range (bs.length / 2)).map fun k =>
    (be16 (bs.getD (2 * k) 0) (bs.getD (2 * k + 1) 0)).toNat).sum

/-- The 16-bit value that end-around folding gives a sum: 0 for 0, and otherwise the value in 1 to 0xFFFF congruent to
it modulo 0xFFFF (R93). -/
def folded (n : Nat) : Nat := if n = 0 then 0 else (n - 1) % 0xFFFF + 1

/-- The host's check of a received message (R96): Checksum(RXV) = RCSUM. -/
def replyValid (s : State) : Prop := checksum (viewSlice .rx s) = s.rcsum

/-! ### Received datagrams (spec/42_session.md R133) -/

/-- The length of the IPv4 header a datagram declares: 4 × (d[0] & 0xF) (spec/30_encoding.md R82). -/
def declaredHeader (d : List Byte) : Nat := 4 * ((d.getD 0 0).toNat % 16)

/-- The identifier field of the enclosed message. -/
def declaredId (d : List Byte) : Half :=
  be16 (d.getD (declaredHeader d + 4) 0) (d.getD (declaredHeader d + 5) 0)

/-- The datagram, cut at the receive capacity, is not empty and holds an identifier field. -/
def HasId (d : List Byte) (capacity : Nat) : Prop :=
  d ≠ [] ∧ declaredHeader d + 6 ≤ min d.length capacity

end Sys2Proof.Machine
end

