-- ==== Sys2Proof/Certificates/Slice0/Obligations.lean ====
section
/-! DEFINITION. The statements about the icmpp echo engine, from the numbered rules of spec/. Every claim about the
block takes `Clean s` ("no HostViolation recorded") as a premise, as spec/60_exceptions.md R160 asks. Where a
statement says `t = { s with … }`, every field that is not named there is unchanged; where it names
`mem := t.mem`, what memory holds is said byte by byte after it. -/

open Sys2Proof Sys2Proof.Machine

/-! ## Encoding (spec/30_encoding.md) -/

/-- Decoding the word of a command gives the command back, with every operand (R70, R71, R73). -/
def Obligations.DecodeOfEncodeIsTheCommand : Prop :=
  ∀ i : Instr, i.wellFormed = true → decode (encode i) = .ok i

/-- Every legal word has one meaning: encoding what it decodes to gives the word back (R73, R74). -/
def Obligations.EncodeOfDecodeIsTheWord : Prop :=
  ∀ (w : Word) (i : Instr), decode w = .ok i → encode i = w

/-- R73: a word is legal exactly when it matches a row's mask and match, a legal word decodes to the command of its
row, and no two rows match the same word. -/
def Obligations.DecodableWordsAreTheTableRows : Prop :=
  ∀ w : Word,
    ((∃ i, decode w = .ok i) ↔ legalWord w = true) ∧
    (∀ i, decode w = .ok i → ∃ r ∈ opcodeRows, r.mnemonic = i.mnemonic ∧ w &&& r.mask = r.pattern) ∧
    (∀ r₁ ∈ opcodeRows, ∀ r₂ ∈ opcodeRows,
      w &&& r₁.mask = r₁.pattern → w &&& r₂.mask = r₂.pattern → r₁ = r₂)

/-- Words of R76, written out, decode to the commands they stand for, and words of R74 to none. -/
def Obligations.TableWordsDecode : Prop :=
  decode 0x00000001 = .ok (.csum .tx) ∧ decode 0x00000101 = .ok (.csum .rx) ∧
  decode 0x00000802 = .ok (.encode 8) ∧ decode 0x0000FF02 = .ok (.encode 255) ∧
  decode 0x00000003 = .ok .patch ∧ decode 0x00000104 = .ok (.decode .rx) ∧
  decode 0x00000005 = .ok .strip ∧ decode 0x12340206 = .ok (.construct .v4 true 0x1234) ∧
  decode 0xFFFF0306 = .ok (.construct .v6 true 0xFFFF) ∧ decode 0x00000007 = .ok .send ∧
  decode 0x00000008 = .ok .recv ∧ decode 0x00000009 = .ok .close ∧
  decode 0x00000000 = .error .reservedOpcode ∧ decode 0x00000011 = .error .reservedField ∧
  decode 0x00000406 = .error .fixedBitSet

/-- R161, R74: a word that matches no row is stored in CMD and completes with IllegalCommand, PHASE keeps its value,
and nothing else changes. -/
def Obligations.IllegalWordCompletesWithIllegalCommand : Prop :=
  ∀ (s : State) (w : Word) (rest : List HostAction), Clean s → s.status.busy = false →
    s.script = .write 0x00000 4 w :: rest →
    (∀ r ∈ opcodeRows, w &&& r.mask ≠ r.pattern) →
    step s = .next { s with
      script := rest
      cmd := w
      hstep := .idle
      status := endedStatus .illegalCommand s.status.phase } ∧
      ErrorCode.illegalCommand.code = 5

/-! ## Steps, reset and the host port -/

/-- R152: a host write of a legal word to CMD while BUSY = 0 stores it in CMD, clears DONE, ERR and ECODE, and runs the
command it decodes to, in one step. -/
def Obligations.StepRunsTheDecodedCommand : Prop :=
  ∀ (s : State) (w : Word) (i : Instr) (rest : List HostAction), Clean s → s.status.busy = false →
    s.script = .write 0x00000 4 w :: rest → decode w = .ok i →
    step s = exec i { s with
      script := rest
      cmd := w
      status := { s.status with done := false, err := false, ecode := .none } }

/-- The state withFetchWord makes has the word's command as its next step. That a command comes from the script is the
model's choice (log entry 12). -/
def Obligations.FetchWordRunsNext : Prop :=
  ∀ (s : State) (w : Nat) (i : Instr), Clean s → s.status.busy = false → w < 2 ^ 32 →
    decode (BitVec.ofNat 32 w) = .ok i →
    step (s.withFetchWord 32 w) = exec i { s with
      cmd := BitVec.ofNat 32 w
      status := { s.status with done := false, err := false, ecode := .none } }

/-- Every step answers a next state: no action of the host, no command and no state stops the machine. This is the
model's own reading, not a rule: that no step faults is log entry 3 (DEDUCED; R157 says that an error ends a command
with a code, R160 that misuse is recorded and changes no block state), and that a step with no host action left exists
and answers next is log entry 1 (DESIGN CHOICE). -/
def Obligations.EveryStepAnswersNext : Prop :=
  ∀ s : State, ∃ t, step s = .next t

/-- A host that does nothing: nothing changes, and a busy block stays busy (R136; that such a step exists at all is the
model's choice, log entry 1). -/
def Obligations.NoHostActionChangesNothing : Prop :=
  ∀ s : State, s.script = [] → step s = .next s

/-- The reset values (R170, R21, R41, R42): PLEN is 56, every other register, every byte of memory and the hidden state
are 0, none and idle. -/
def Obligations.ResetStateHoldsTheResetValues : Prop :=
  (∀ r : Reg, readReg r State.reset = if r = .plen then 56 else 0) ∧
  (∀ a : Nat, State.reset.mem.read a = 0) ∧
  State.reset.sock = .none ∧ State.reset.hstep = .idle ∧ State.reset.pendId = 0 ∧
  State.reset.pendPlen = 0 ∧ State.reset.pendAddr = 0 ∧ Clean State.reset

/-- R170: a reset, at any time, gives every register and byte its reset value and the hidden state none, idle and 0;
the pending request is abandoned, so an answer to it is a host violation; the violation record is not cleared. R171: no
request is made. (An answer names its request by its kind alone, so one that comes only after a new request of the same
kind is not told apart: the model's choice, log entry 18, DESIGN CHOICE.) -/
def Obligations.HostResetGivesTheResetValues : Prop :=
  ∀ (s : State) (rest : List HostAction), s.script = .reset :: rest →
    ∃ t, step s = .next t ∧
      (∀ r : Reg, readReg r t = if r = .plen then 56 else 0) ∧
      (∀ a : Nat, t.mem.read a = 0) ∧
      t.status = { busy := false, done := false, err := false, ecode := .none, phase := .noSession } ∧
      t.sock = .none ∧ t.hstep = .idle ∧ t.pendId = 0 ∧ t.pendPlen = 0 ∧ t.pendAddr = 0 ∧
      t.violations = s.violations ∧ t.outbox = s.outbox ∧ t.script = rest ∧
      (∀ (ans : HostAnswer) (rest' : List HostAction), rest = .answer ans :: rest' →
        step t = .next { t with script := rest', violations := t.violations ++ [.answer ans] })

/-- R54, R55, R58: a legal read returns the register's value or the stored byte, and changes nothing of the block. It
is allowed while BUSY (R59). That a byte is returned zero-extended to 32 bits is the model's choice (log entry 7, DESIGN
CHOICE): R55 says only that the stored byte is returned. -/
def Obligations.ReadsReturnTheValueAndChangeNothing : Prop :=
  (∀ (s : State) (r : Reg) (rest : List HostAction), Clean s → s.script = rd r :: rest →
    step s = .next { s with script := rest, readData := s.readData ++ [readReg r s] }) ∧
  (∀ (s : State) (b : Buffer) (i : Nat) (rest : List HostAction), Clean s → i < b.size →
    s.script = rdb b i :: rest →
    step s = .next { s with
      script := rest
      readData := s.readData ++ [(s.mem.read (b.base + i)).setWidth 32] })

/-- R54, R21, R28, R36: what a legal write to each writable register other than CMD stores. -/
def Obligations.RegisterWritesStoreTheTruncatedValue : Prop :=
  ∀ (s : State) (v : Word) (rest : List HostAction), Clean s → s.status.busy = false →
    (s.script = wr .arg v :: rest → step s = .next { s with script := rest, arg := v }) ∧
    (s.script = wr .dest v :: rest → step s = .next { s with script := rest, dest := v }) ∧
    (s.script = wr .off v :: rest →
      step s = .next { s with script := rest, off := v.setWidth 16 }) ∧
    (s.script = wr .rxlen v :: rest → v.toNat ≤ Buffer.rxbuf.size →
      step s = .next { s with script := rest, rxlen := v.setWidth 16 }) ∧
    (s.script = wr .plen v :: rest → v.toNat ≤ Config.maxPlen →
      s.status.phase = .noSession →
      step s = .next { s with script := rest, plen := v.setWidth 16 })

/-- R55: a byte write to PAYLOAD or RXBUF stores the byte; every other byte and everything else is unchanged. That the
byte travels as the low 8 bits of a 32-bit value is the model's choice (log entry 7, DESIGN CHOICE). -/
def Obligations.ByteWritesStoreOneByte : Prop :=
  ∀ (s : State) (b : Buffer) (i : Nat) (v : Byte) (rest : List HostAction), Clean s →
    s.status.busy = false → b = .payload ∨ b = .rxbuf → i < b.size →
    s.script = wrb b i v :: rest →
    ∃ t, step s = .next t ∧ t = { s with script := rest, mem := t.mem } ∧
      ∀ a : Nat, t.mem.read a = if a = b.base + i then v else s.mem.read a

/-- R59: while BUSY = 1 the host may read any register or buffer byte and sees its value; any host write is a host
violation. That a byte is returned zero-extended to 32 bits is the model's choice (log entry 7, DESIGN CHOICE), and no
rule's. -/
def Obligations.BusyBlockAnswersReadsAndRefusesWrites : Prop :=
  ∀ (s : State) (rest : List HostAction), Clean s → s.status.busy = true →
    (∀ r : Reg, s.script = rd r :: rest →
      step s = .next { s with script := rest, readData := s.readData ++ [readReg r s] }) ∧
    (∀ (b : Buffer) (i : Nat), i < b.size → s.script = rdb b i :: rest →
      step s = .next { s with
        script := rest
        readData := s.readData ++ [(s.mem.read (b.base + i)).setWidth 32] }) ∧
    (∀ (addr : HostAddr) (size : Nat) (v : Word), s.script = .write addr size v :: rest →
      step s = .next { s with script := rest, violations := [.write addr size v] })

/-- R160: an action is recorded as a host violation exactly when it is one of those R160 lists, and then no block state
changes. (The reading of two of its items is the model's: log entries 4 to 6 and 18.) -/
def Obligations.MisuseIsRecordedAndChangesNoBlockState : Prop :=
  ∀ (s : State) (a : HostAction) (rest : List HostAction), s.script = a :: rest →
    (Misuse a s →
      step s = .next { s with script := rest, violations := s.violations ++ [a] }) ∧
    (¬ Misuse a s → ∀ t, step s = .next t → t.violations = s.violations)

/-- R160, R170: the record of host violations is never cleared; a step adds at most the action it took. -/
def Obligations.ViolationRecordIsNeverCleared : Prop :=
  ∀ s t : State, step s = .next t →
    t.violations = s.violations ∨
      ∃ a rest, s.script = a :: rest ∧ t.violations = s.violations ++ [a]

/-! ## Invariants -/

/-- The invariants of R43 hold at reset, and so does the one about the model's own field pendBefore (log entry 16). -/
def Obligations.ResetMeetsTheInvariant : Prop :=
  State.reset.Inv ∧ State.reset.MemInv

/-- R43: every step keeps the invariants, whatever the host does. (One of them is about the model's own field
pendBefore, log entry 16.) -/
def Obligations.StepKeepsTheInvariant : Prop :=
  ∀ s t : State, Clean s → s.Inv → step s = .next t → t.Inv

/-- Every step keeps memory canonical and inside the four buffers (R41, R53). The canonical form is the model's
representation. -/
def Obligations.StepKeepsMemoryInsideTheBuffers : Prop :=
  ∀ s t : State, Clean s → s.Inv → s.MemInv → step s = .next t → t.MemInv

/-! ## STATUS -/

/-- R22, R150: where each field of STATUS stands in the 32-bit value, and that its reserved bits read 0. -/
def Obligations.StatusFieldsStandWhereTheyShould : Prop :=
  ∀ st : Status,
    st.word.getLsbD 0 = st.busy ∧ st.word.getLsbD 1 = st.done ∧ st.word.getLsbD 2 = st.err ∧
    st.word.getLsbD 3 = false ∧ st.word.extractLsb' 4 4 = st.ecode.code ∧
    st.word.extractLsb' 8 2 = st.phase.code ∧ st.word.extractLsb' 10 22 = 0 ∧
    ErrorCode.none.code = 0 ∧ ErrorCode.resolution.code = 1 ∧ ErrorCode.socketInit.code = 2 ∧
    ErrorCode.transport.code = 3 ∧ ErrorCode.malformedInput.code = 4 ∧
    ErrorCode.illegalCommand.code = 5 ∧ ErrorCode.sessionState.code = 6 ∧
    Phase.noSession.code = 0 ∧ Phase.opened.code = 1 ∧ Phase.sending.code = 2 ∧
    Phase.awaiting.code = 3

/-- R153: a command with no host request completes in its issue step, whether it succeeds or fails; its PHASE stays,
but for CLOSE. -/
def Obligations.HostlessCommandsCompleteAtIssue : Prop :=
  ∀ (s : State) (i : Instr), Clean s →
    ((∃ v, i = .csum v) ∨ (∃ ty, i = .encode ty) ∨ i = .patch ∨ (∃ v, i = .decode v) ∨ i = .strip ∨
      i = .close) →
    ∃ t e, exec i s = .next t ∧
      t.status = endedStatus e (if i = .close ∧ e = .none then .noSession else s.status.phase) ∧
      t.hstep = .idle ∧
      t.outbox = (if i = .close ∧ e = .none then s.outbox ++ [.close] else s.outbox)

/-- R154: a command that ends with an error in its issue step writes nothing but STATUS and h.STEP (CMD was written by
the issue, R152); its PHASE stays. -/
def Obligations.FailingIssueWritesOnlyStatus : Prop :=
  ∀ (s t : State) (i : Instr), Clean s → s.status.err = false → exec i s = .next t →
    t.status.err = true →
    ∃ e, e ≠ .none ∧ t = { s with status := endedStatus e s.status.phase, hstep := .idle }

/-! ## Checksum (spec/40_checksum.md) -/

/-- R90: Checksum(s) is what the pseudocode computes. The words at k < |s| / 2, k ≠ 1, are summed exactly; the fold
loop runs while acc[31:16] ≠ 0 (n passes, each taken with acc[31:16] ≠ 0, the last leaving 0); the result is the NOT
of acc[15:0]. -/
def Obligations.ChecksumFollowsThePseudocode : Prop :=
  ∀ bs : List Byte, bs.length ≤ 65535 →
    ∃ n : Nat,
      (foldPass^[n] (BitVec.ofNat 32 (countedSum bs))).extractLsb' 16 16 = 0 ∧
      (∀ m < n, (foldPass^[m] (BitVec.ofNat 32 (countedSum bs))).extractLsb' 16 16 ≠ 0) ∧
      checksum bs = ~~~ (foldPass^[n] (BitVec.ofNat 32 (countedSum bs))).extractLsb' 0 16

/-- R93: a pass keeps the value modulo 0xFFFF, and 0 exactly at 0; the accumulator never overflows, its values after each
pass are bounded and the loop ends within two; the folded value is 0 for a sum of 0 and otherwise the value in 1 to 0xFFFF
congruent to the sum modulo 0xFFFF. -/
def Obligations.ChecksumIsTheComplementOfTheResidue : Prop :=
  (∀ acc : Word, (foldPass acc).toNat % 0xFFFF = acc.toNat % 0xFFFF ∧ (foldPass acc = 0 ↔ acc = 0)) ∧
  ∀ bs : List Byte, bs.length ≤ 65535 →
    (wordsOf bs).length ≤ 32767 ∧ (countedWords (wordsOf bs)).length ≤ 32766 ∧
    countedSum bs ≤ 0x7FFD8002 ∧
    (sumWords (countedWords (wordsOf bs))).toNat = countedSum bs ∧
    (foldPass (sumWords (countedWords (wordsOf bs)))).toNat ≤ 0x17FFC ∧
    (foldPass (foldPass (sumWords (countedWords (wordsOf bs))))).toNat ≤ 0xFFFF ∧
    (foldLoop 2 (sumWords (countedWords (wordsOf bs)))).extractLsb' 16 16 = 0 ∧
    (countedSum bs = 0 → checksum bs = 0xFFFF) ∧
    (0 < countedSum bs →
      checksum bs ≠ 0xFFFF ∧ (0xFFFF - (checksum bs).toNat) % 0xFFFF = countedSum bs % 0xFFFF)

/-- R94: the checksum does not depend on bytes 2 and 3, so patching it in and computing again gives the same value. -/
def Obligations.ChecksumIgnoresItsOwnField : Prop :=
  (∀ (b0 b1 b2 b3 c2 c3 : Byte) (bs : List Byte),
    checksum (b0 :: b1 :: b2 :: b3 :: bs) = checksum (b0 :: b1 :: c2 :: c3 :: bs)) ∧
  (∀ (b0 b1 b2 b3 : Byte) (bs : List Byte),
    let c := checksum (b0 :: b1 :: b2 :: b3 :: bs)
    checksum (b0 :: b1 :: hi8 c :: lo8 c :: bs) = c) ∧
  (∀ b0 b1 b2 c2 : Byte, checksum [b0, b1, b2] = checksum [b0, b1, c2])

/-- R95: with its checksum in place, the sum of all words of a message folds to 0xFFFF, whose NOT is 0. -/
def Obligations.FullSumOfACheckedMessageIsAllOnes : Prop :=
  ∀ (b0 b1 b2 b3 : Byte) (bs : List Byte), bs.length + 4 ≤ 65535 →
    be16 b2 b3 = checksum (b0 :: b1 :: b2 :: b3 :: bs) →
    foldedSum (wordsOf (b0 :: b1 :: b2 :: b3 :: bs)) = 0xFFFF ∧
      ~~~ foldedSum (wordsOf (b0 :: b1 :: b2 :: b3 :: bs)) = 0

/-- R91: word k is be16(s[2k], s[2k+1]) for k below half the length; a trailing odd byte is discarded; with fewer than
four bytes nothing is skipped, and with fewer than two no word is added. -/
def Obligations.TrailingOddByteIsDiscarded : Prop :=
  (∀ (bs : List Byte) (k : Nat), (wordsOf bs)[k]? =
    if k < bs.length / 2 then some (be16 (bs.getD (2 * k) 0) (bs.getD (2 * k + 1) 0)) else none) ∧
  (∀ b0 b1 b2 : Byte, checksum [b0, b1] = ~~~ be16 b0 b1 ∧ checksum [b0, b1, b2] = ~~~ be16 b0 b1) ∧
  (∀ (bs : List Byte) (b : Byte), bs.length % 2 = 0 → checksum (bs ++ [b]) = checksum bs) ∧
  checksum [] = 0xFFFF ∧ (∀ b : Byte, checksum [b] = 0xFFFF)

/-- R97: adding the padded word b << 8 for a trailing odd byte b gives the same result exactly when b = 0. (That RFC
1071 pads so is the spec's general knowledge, G1.) -/
def Obligations.PaddingAgreesExactlyOnAZeroTail : Prop :=
  ∀ (bs : List Byte) (b : Byte), bs.length % 2 = 0 → bs.length + 1 ≤ 65535 →
    (folded (countedSum bs + 256 * b.toNat) = folded (countedSum bs) ↔ b = 0) ∧
    (checksum (bs ++ [b])).toNat = 0xFFFF - folded (countedSum bs)

/-- R96: the full-sum check accepts what this block's convention accepts, and one case more: the field 0xFFFF where the
other words fold to 0xFFFF. -/
def Obligations.ValidationConventionsDifferInOneCase : Prop :=
  ∀ (b0 b1 b2 b3 : Byte) (bs : List Byte), bs.length + 4 ≤ 65535 →
    let m := b0 :: b1 :: b2 :: b3 :: bs
    (foldedSum (wordsOf m) = 0xFFFF ↔
      checksum m = be16 b2 b3 ∨
        (folded (countedSum m) = 0xFFFF ∧ be16 b2 b3 = 0xFFFF))

/-- R92, R98: CSUM writes the checksum of its view to CSR and completes; nothing else changes, in any phase. An empty
view gives 0xFFFF. -/
def Obligations.CsumWritesTheChecksumOfItsView : Prop :=
  ∀ (s : State) (v : View), Clean s →
    exec (.csum v) s = .next { s with
      csr := checksum (viewSlice v s)
      status := endedStatus .none s.status.phase
      hstep := .idle } ∧
    (viewSlice v s = [] → checksum (viewSlice v s) = 0xFFFF)

/-! ## Codec (spec/41_codec.md) -/

/-- R100, R101: ENCODE writes the type, code 0, a zero checksum field, ARG's identifier and sequence big-endian and the
payload; TXLEN is 8 + PLEN; no byte outside the message and nothing else is written. -/
def Obligations.EncodeBuildsTheMessage : Prop :=
  ∀ (s : State) (ty : Byte), Clean s → s.plen.toNat ≤ Config.maxPlen →
    ∃ t, exec (.encode ty) s = .next t ∧
      t = { s with
        mem := t.mem
        txlen := t.txlen
        status := endedStatus .none s.status.phase
        hstep := .idle } ∧
      t.txlen.toNat = 8 + s.plen.toNat ∧
      t.mem.read 0x20000 = ty ∧ t.mem.read 0x20001 = 0 ∧
      t.mem.read 0x20002 = 0 ∧ t.mem.read 0x20003 = 0 ∧
      be16 (t.mem.read 0x20004) (t.mem.read 0x20005) = s.arg.extractLsb' 16 16 ∧
      be16 (t.mem.read 0x20006) (t.mem.read 0x20007) = s.arg.extractLsb' 0 16 ∧
      (∀ i < s.plen.toNat, t.mem.read (0x20008 + i) = s.mem.read (0x10000 + i)) ∧
      (∀ a : Nat, a < 0x20000 ∨ 0x20008 + s.plen.toNat ≤ a → t.mem.read a = s.mem.read a)

/-- R103: PATCH writes CSR to message bytes 2 and 3, big-endian, and nothing else; without a message it fails with
MalformedInput; patching twice is patching once. -/
def Obligations.PatchWritesTheChecksumField : Prop :=
  ∀ s : State, Clean s →
    (8 ≤ s.txlen.toNat → ∃ t, exec .patch s = .next t ∧
      t = { s with mem := t.mem, status := endedStatus .none s.status.phase, hstep := .idle } ∧
      be16 (t.mem.read 0x20002) (t.mem.read 0x20003) = s.csr ∧
      (∀ a : Nat, a ≠ 0x20002 → a ≠ 0x20003 → t.mem.read a = s.mem.read a) ∧
      (∃ u, exec .patch t = .next u ∧ ∀ a : Nat, u.mem.read a = t.mem.read a)) ∧
    (s.txlen.toNat < 8 → exec .patch s = .next { s with
      status := endedStatus .malformedInput s.status.phase
      hstep := .idle })

/-- R104, R105: DECODE parses a view of at least 8 bytes into the reply registers, whatever its type, code and
checksum, copies the data to RDATA, and changes nothing else. -/
def Obligations.DecodeParsesTheView : Prop :=
  ∀ (s : State) (v : View), Clean s → 8 ≤ (viewSlice v s).length →
    let m := viewSlice v s
    ∃ t, exec (.decode v) s = .next t ∧
      t = { s with
        mem := t.mem
        rtype := m.getD 0 0
        rcode := m.getD 1 0
        rcsum := be16 (m.getD 2 0) (m.getD 3 0)
        rid := be16 (m.getD 4 0) (m.getD 5 0)
        rseq := be16 (m.getD 6 0) (m.getD 7 0)
        rdlen := t.rdlen
        status := endedStatus .none s.status.phase
        hstep := .idle } ∧
      t.rdlen.toNat = m.length - 8 ∧
      (∀ i < m.length - 8, t.mem.read (0x40000 + i) = m.getD (8 + i) 0) ∧
      (∀ a : Nat, a < 0x40000 ∨ 0x40000 + (m.length - 8) ≤ a → t.mem.read a = s.mem.read a)

/-- R104, R154: DECODE of fewer than 8 bytes fails with MalformedInput and writes nothing but STATUS and h.STEP. -/
def Obligations.DecodeOfAShortViewFails : Prop :=
  ∀ (s : State) (v : View), Clean s → (viewSlice v s).length < 8 →
    exec (.decode v) s = .next { s with
      status := endedStatus .malformedInput s.status.phase
      hstep := .idle }

/-- R110: STRIP sets OFF to 4 × (RX[0] & 0xF), ignoring the high nibble; with RXLEN = 0 it fails with MalformedInput
and OFF stays. -/
def Obligations.StripComputesTheOffset : Prop :=
  ∀ s : State, Clean s →
    (s.rxlen ≠ 0 → exec .strip s = .next { s with
      off := BitVec.ofNat 16 (4 * ((s.mem.read 0x30000).toNat % 16))
      status := endedStatus .none s.status.phase
      hstep := .idle }) ∧
    (s.rxlen = 0 → exec .strip s = .next { s with
      status := endedStatus .malformedInput s.status.phase
      hstep := .idle })

/-- R109: after `strip`, RXV is the echo message behind the IPv4 header, and `decode rx` yields its fields. -/
def Obligations.StripLocatesTheMessage : Prop :=
  ∀ (s : State) (m : List Byte), Clean s → 8 ≤ m.length →
    s.rxlen.toNat = 4 * ((s.mem.read 0x30000).toNat % 16) + m.length →
    (∀ i < m.length,
      s.mem.read (0x30000 + 4 * ((s.mem.read 0x30000).toNat % 16) + i) = m.getD i 0) →
    ∃ t u, exec .strip s = .next t ∧ viewSlice .rx t = m ∧ exec (.decode .rx) t = .next u ∧
      u.rtype = m.getD 0 0 ∧ u.rcode = m.getD 1 0 ∧ u.rcsum = be16 (m.getD 2 0) (m.getD 3 0) ∧
      u.rid = be16 (m.getD 4 0) (m.getD 5 0) ∧ u.rseq = be16 (m.getD 6 0) (m.getD 7 0) ∧
      u.rdlen.toNat = m.length - 8 ∧
      (∀ i < m.length - 8, u.mem.read (0x40000 + i) = m.getD (8 + i) 0)

/-- R102: from any state with BUSY = 0, `encode t` and then `decode tx`, with or without `csum tx; patch` in between,
recovers type, identifier, sequence and payload; the checksum field is 0 without the patch and the patched CSR with
it. -/
def Obligations.EncodeThenDecodeRecoversTheMessage : Prop :=
  ∀ (s : State) (ty : Byte) (rest : List HostAction), Clean s → s.status.busy = false →
    s.plen.toNat ≤ Config.maxPlen →
    (s.script = issueCommand (.encode ty) :: issueCommand (.decode .tx) :: rest →
      ∃ t, runSteps 2 s = .next t ∧
        t.rtype = ty ∧ t.rcode = 0 ∧ t.rcsum = 0 ∧ t.rid = s.arg.extractLsb' 16 16 ∧
        t.rseq = s.arg.extractLsb' 0 16 ∧ t.rdlen = s.plen ∧
        (∀ i < s.plen.toNat, t.mem.read (0x40000 + i) = s.mem.read (0x10000 + i))) ∧
    (s.script = issueCommand (.encode ty) :: issueCommand (.csum .tx) :: issueCommand .patch ::
        issueCommand (.decode .tx) :: rest →
      ∃ t, runSteps 4 s = .next t ∧
        t.rtype = ty ∧ t.rcode = 0 ∧ t.rcsum = t.csr ∧ t.rid = s.arg.extractLsb' 16 16 ∧
        t.rseq = s.arg.extractLsb' 0 16 ∧ t.rdlen = s.plen ∧
        (∀ i < s.plen.toNat, t.mem.read (0x40000 + i) = s.mem.read (0x10000 + i)) ∧
        t.csr = checksum (viewSlice .tx t))

/-! ## Session (spec/42_session.md) -/

/-- R122: CONSTRUCT's issue step. With a session it fails with SessionState; IPv6 fails at once with Resolution and no
host request; a payload length above MAX_PLEN fails with IllegalCommand; otherwise the values to commit are kept, BUSY
is set and the host is asked to resolve DEST. That the earlier values of h.PEND_* are kept as well, in a field of the
model's own, is no rule's (log entry 16). -/
def Obligations.ConstructIssueStep : Prop :=
  ∀ (s : State) (fam : Family) (plp : Bool) (id : Half), Clean s →
    (s.status.phase ≠ .noSession → exec (.construct fam plp id) s = .next { s with
      status := endedStatus .sessionState s.status.phase
      hstep := .idle }) ∧
    (s.status.phase = .noSession → fam = .v6 → exec (.construct fam plp id) s = .next { s with
      status := endedStatus .resolution .noSession
      hstep := .idle }) ∧
    (s.status.phase = .noSession → fam = .v4 → plp = true →
      Config.maxPlen < s.arg.toNat % 65536 → exec (.construct fam plp id) s = .next { s with
        status := endedStatus .illegalCommand .noSession
        hstep := .idle }) ∧
    (s.status.phase = .noSession → fam = .v4 →
      (plp = true → s.arg.toNat % 65536 ≤ Config.maxPlen) →
      exec (.construct fam plp id) s = .next { s with
        pendId := id
        pendPlen := if plp then s.arg.extractLsb' 0 16 else 56
        pendBefore := some { id := s.pendId, plen := s.pendPlen, addr := s.pendAddr }
        status := { s.status with busy := true }
        hstep := .constructResolve
        outbox := s.outbox ++ [.resolve s.dest 0] })

/-- R123: CONSTRUCT's host-answer steps. That a Fail puts back what h.PEND_ID, h.PEND_PLEN and h.PEND_ADDR held before
the command is the model's reading of R154, whose list of what a failing command may write does not name them (log entry
16, DEDUCED); the pseudocode of R123 shows no such write. -/
def Obligations.ConstructAnswerSteps : Prop :=
  ∀ (s : State) (rest : List HostAction), Clean s →
    let before := s.pendBefore.getD { id := s.pendId, plen := s.pendPlen, addr := s.pendAddr }
    (s.hstep = .constructResolve → s.script = .answer .resolveFail :: rest →
      step s = .next { s with
        script := rest
        pendId := before.id
        pendPlen := before.plen
        pendAddr := before.addr
        pendBefore := none
        hstep := .idle
        status := endedStatus .resolution s.status.phase }) ∧
    (∀ addr, s.hstep = .constructResolve → s.script = .answer (.resolveOk addr) :: rest →
      step s = .next { s with
        script := rest
        pendAddr := addr
        hstep := .constructSocket
        outbox := s.outbox ++ [.socket 0] }) ∧
    (s.hstep = .constructSocket → s.script = .answer .socketFail :: rest →
      step s = .next { s with
        script := rest
        pendId := before.id
        pendPlen := before.plen
        pendAddr := before.addr
        pendBefore := none
        hstep := .idle
        status := endedStatus .socketInit s.status.phase }) ∧
    (s.hstep = .constructSocket → s.script = .answer .socketOk :: rest →
      ∃ t, step s = .next t ∧
        t = { s with
          script := rest
          mem := t.mem
          sock := .held
          id := s.pendId
          seq := 0
          plen := s.pendPlen
          family := 0
          saddr := s.pendAddr
          pendBefore := none
          hstep := .idle
          status := endedStatus .none .opened } ∧
        ∀ a : Nat, t.mem.read a =
          if 0x10000 ≤ a ∧ a < 0x10000 + s.pendPlen.toNat then 0 else s.mem.read a)

/-- R121 to R123: a CONSTRUCT whose host answers Ok twice opens the session: identifier from the word, SEQ 0, PLEN 56
or ARG[15:0], the resolved address, PAY[0..PLEN) zero, and exactly the two requests made. -/
def Obligations.ConstructOpensTheSession : Prop :=
  ∀ (s : State) (plp : Bool) (id : Half) (addr : Word) (rest : List HostAction), Clean s →
    s.status.busy = false → s.status.phase = .noSession →
    (plp = true → s.arg.toNat % 65536 ≤ Config.maxPlen) →
    s.script = issueCommand (.construct .v4 plp id) :: .answer (.resolveOk addr) ::
      .answer .socketOk :: rest →
    ∃ t, runSteps 3 s = .next t ∧
      t.status = endedStatus .none .opened ∧ t.sock = .held ∧ t.hstep = .idle ∧
      t.id = id ∧ t.seq = 0 ∧ t.family = 0 ∧ t.saddr = addr ∧
      t.plen = (if plp then s.arg.extractLsb' 0 16 else 56) ∧
      t.outbox = s.outbox ++ [.resolve s.dest 0, .socket 0] ∧ t.script = rest ∧ Clean t ∧
      (∀ a : Nat, t.mem.read a =
        if 0x10000 ≤ a ∧ a < 0x10000 + t.plen.toNat then 0 else s.mem.read a)

/-- R124, R154: no resource survives a failed CONSTRUCT: no socket, PHASE stays NOSESSION, and no register but CMD and
STATUS changes, whether the resolver or the socket fails. Beside the requests it made and the actions it took from the
script, nothing at all is left of it, h.PEND_ID, h.PEND_PLEN and h.PEND_ADDR included (these by log entry 16,
DEDUCED). -/
def Obligations.FailedConstructLeavesNothing : Prop :=
  ∀ (s : State) (plp : Bool) (id : Half) (addr : Word) (rest : List HostAction) (k : Nat),
    Clean s → s.Inv → s.status.busy = false → s.status.phase = .noSession →
    (plp = true → s.arg.toNat % 65536 ≤ Config.maxPlen) →
    ((k = 2 ∧ s.script = issueCommand (.construct .v4 plp id) :: .answer .resolveFail :: rest) ∨
      (k = 3 ∧ s.script = issueCommand (.construct .v4 plp id) :: .answer (.resolveOk addr) ::
        .answer .socketFail :: rest)) →
    ∃ t, runSteps k s = .next t ∧ t.sock = .none ∧ t.hstep = .idle ∧
      t.status = endedStatus (if k = 2 then .resolution else .socketInit) .noSession ∧
      t.mem = s.mem ∧ (∀ r : Reg, r ≠ .cmd → r ≠ .status → readReg r t = readReg r s) ∧
      t = { s with
        cmd := encode (.construct .v4 plp id)
        status := t.status
        outbox := s.outbox ++ .resolve s.dest 0 :: if k = 2 then [] else [.socket 0]
        script := rest }

/-- R127: SEND's issue step, with no session open (SessionState, nothing written) and with one: the request of type 8
(128 where FAMILY = 1, which no run reaches) carries ID and SEQ and the payload, its checksum is in CSR and in bytes 2
and 3, and it is handed to the host with SADDR. PAYLOAD is not written (R129). -/
def Obligations.SendIssueStep : Prop :=
  ∀ s : State, Clean s →
    (s.status.phase ≠ .opened → exec .send s = .next { s with
      status := endedStatus .sessionState s.status.phase
      hstep := .idle }) ∧
    (s.status.phase = .opened → s.plen.toNat ≤ Config.maxPlen →
      ∃ t m, exec .send s = .next t ∧
        t = { s with
          mem := t.mem
          txlen := t.txlen
          csr := checksum m
          status := { s.status with busy := true, phase := .sending }
          hstep := .sendTx
          outbox := s.outbox ++ [.sendto m s.saddr] } ∧
        t.txlen.toNat = 8 + s.plen.toNat ∧ m = viewSlice .tx t ∧
        m.getD 0 0 = (if s.family = 0 then 8 else 128) ∧ m.getD 1 0 = 0 ∧ be16 (m.getD 2 0) (m.getD 3 0) = checksum m ∧
        be16 (m.getD 4 0) (m.getD 5 0) = s.id ∧ be16 (m.getD 6 0) (m.getD 7 0) = s.seq ∧
        (∀ i < s.plen.toNat, m.getD (8 + i) 0 = s.mem.read (0x10000 + i)) ∧
        (∀ a : Nat, a < 0x20000 ∨ 0x20008 + s.plen.toNat ≤ a → t.mem.read a = s.mem.read a))

/-- R128: SEND's host-answer step: on Fail it ends with Transport; on Ok(n), for every n the host may report, TXCNT is
n and SEQ is incremented modulo 65536; PHASE returns to OPEN. -/
def Obligations.SendAnswerStep : Prop :=
  ∀ (s : State) (rest : List HostAction), Clean s → s.hstep = .sendTx →
    (s.script = .answer .sendtoFail :: rest → step s = .next { s with
      script := rest
      hstep := .idle
      status := endedStatus .transport .opened }) ∧
    (∀ n, n ≤ s.txlen.toNat → s.script = .answer (.sendtoOk n) :: rest →
      ∃ t, step s = .next t ∧
        t = { s with
          script := rest
          txcnt := t.txcnt
          seq := t.seq
          hstep := .idle
          status := endedStatus .none .opened } ∧
        t.txcnt.toNat = n ∧ t.seq.toNat = (s.seq.toNat + 1) % 65536)

/-- R129: any number k of successful SENDs adds k to SEQ modulo 65536, and the i-th of them carried the sequence SEQ + i
modulo 65536; the payload is never written. (From CONSTRUCT, where SEQ = 0, this is R129's own wording.) -/
def Obligations.SequenceCountsTheSends : Prop :=
  ∀ (s : State) (counts : List Nat) (rest : List HostAction), Clean s → s.status.busy = false →
    s.status.phase = .opened → s.plen.toNat ≤ Config.maxPlen →
    (∀ n ∈ counts, n ≤ 8 + s.plen.toNat) →
    s.script = (counts.flatMap fun n => [issueCommand .send, .answer (.sendtoOk n)]) ++ rest →
    ∃ t sent, runSteps (2 * counts.length) s = .next t ∧ Clean t ∧
      t.status.phase = .opened ∧ t.status.busy = false ∧ t.script = rest ∧
      t.seq.toNat = (s.seq.toNat + counts.length) % 65536 ∧
      t.outbox = s.outbox ++ sent ∧ sent.length = counts.length ∧
      (∀ i < counts.length, ∃ m, sent[i]? = some (.sendto m s.saddr) ∧
        be16 (m.getD 4 0) (m.getD 5 0) = s.id ∧
        (be16 (m.getD 6 0) (m.getD 7 0)).toNat = (s.seq.toNat + i) % 65536) ∧
      (∀ i < s.plen.toNat, t.mem.read (0x10000 + i) = s.mem.read (0x10000 + i))

/-- R131: RECV's issue step. -/
def Obligations.RecvIssueStep : Prop :=
  ∀ s : State, Clean s →
    (s.status.phase ≠ .opened → exec .recv s = .next { s with
      status := endedStatus .sessionState s.status.phase
      hstep := .idle }) ∧
    (s.status.phase = .opened → exec .recv s = .next { s with
      status := { s.status with busy := true, phase := .awaiting }
      hstep := .recvWait
      outbox := s.outbox ++ [.recvfrom (68 + s.plen.toNat)] })

/-- R132, R135: a failed read ends RECV with Transport; the session stays open and nothing else changes. -/
def Obligations.RecvReadFailureKeepsTheSession : Prop :=
  ∀ (s : State) (rest : List HostAction), Clean s → s.hstep = .recvWait →
    s.script = .answer .recvfromFail :: rest →
    step s = .next { s with
      script := rest
      hstep := .idle
      status := endedStatus .transport .opened }

/-- R133, R137: a datagram with another identifier is discarded without an error: the block stays busy and asks for the
next one. It leaves the datagram in RXBUF, RXLEN and OFF, and changes nothing else. -/
def Obligations.OtherIdentifiersAreDiscarded : Prop :=
  ∀ (s : State) (d : List Byte) (src : Word) (rest : List HostAction), Clean s → s.Inv →
    s.hstep = .recvWait → s.script = .answer (.recvfromOk d src) :: rest →
    HasId d (68 + s.plen.toNat) → declaredId d ≠ s.id →
    ∃ t, step s = .next t ∧
      t = { s with
        script := rest
        mem := t.mem
        rxlen := t.rxlen
        off := t.off
        outbox := s.outbox ++ [.recvfrom (68 + s.plen.toNat)] } ∧
      t.rxlen.toNat = min d.length (68 + s.plen.toNat) ∧ t.off.toNat = declaredHeader d ∧
      (∀ i < min d.length (68 + s.plen.toNat), t.mem.read (0x30000 + i) = d.getD i 0) ∧
      (∀ a : Nat, a < 0x30000 ∨ 0x30000 + min d.length (68 + s.plen.toNat) ≤ a →
        t.mem.read a = s.mem.read a)

/-- R133, R134, R130: a datagram with this session's identifier and a whole header is stored, cut at the capacity, and
decoded behind its IPv4 header; RTOTLEN is the stored length and RSRC its source; the session is open again. -/
def Obligations.MatchingDatagramIsDecoded : Prop :=
  ∀ (s : State) (d : List Byte) (src : Word) (rest : List HostAction), Clean s → s.Inv →
    s.hstep = .recvWait → s.script = .answer (.recvfromOk d src) :: rest →
    d ≠ [] → declaredHeader d + 8 ≤ min d.length (68 + s.plen.toNat) → declaredId d = s.id →
    let n := min d.length (68 + s.plen.toNat)
    let h := declaredHeader d
    ∃ t, step s = .next t ∧
      t = { s with
        script := rest
        mem := t.mem
        rxlen := t.rxlen
        off := t.off
        rtype := d.getD h 0
        rcode := d.getD (h + 1) 0
        rcsum := be16 (d.getD (h + 2) 0) (d.getD (h + 3) 0)
        rid := s.id
        rseq := be16 (d.getD (h + 6) 0) (d.getD (h + 7) 0)
        rdlen := t.rdlen
        rtotlen := t.rtotlen
        rsrc := src
        hstep := .idle
        status := endedStatus .none .opened } ∧
      t.rxlen.toNat = n ∧ t.off.toNat = h ∧ t.rdlen.toNat = n - h - 8 ∧ t.rtotlen.toNat = n ∧
      (∀ i < n, t.mem.read (0x30000 + i) = d.getD i 0) ∧
      (∀ i < n - h - 8, t.mem.read (0x40000 + i) = d.getD (h + 8 + i) 0) ∧
      (∀ a : Nat, a < 0x30000 ∨ (0x30000 + n ≤ a ∧ a < 0x40000) ∨ 0x40000 + (n - h - 8) ≤ a →
        t.mem.read a = s.mem.read a)

/-- R133, R134, R135: a datagram that is empty, too short to hold an identifier, or one with this session's identifier
too short to decode, ends RECV with MalformedInput; the session stays open; beside RXBUF, RXLEN and OFF nothing
changes. What an empty datagram writes to OFF is a free value, which is the model's choice (log entry 17, DESIGN
CHOICE): the statement holds whatever it is, and R179 says only that OFF is overwritten. -/
def Obligations.ShortDatagramsEndRecv : Prop :=
  ∀ (s : State) (d : List Byte) (src : Word) (rest : List HostAction), Clean s → s.Inv →
    s.hstep = .recvWait → s.script = .answer (.recvfromOk d src) :: rest →
    (¬ HasId d (68 + s.plen.toNat) ∨
      (declaredId d = s.id ∧ min d.length (68 + s.plen.toNat) < declaredHeader d + 8)) →
    ∃ t, step s = .next t ∧
      t = { s with
        script := rest
        mem := t.mem
        rxlen := t.rxlen
        off := t.off
        freeCount := t.freeCount
        hstep := .idle
        status := endedStatus .malformedInput .opened } ∧
      t.rxlen.toNat = min d.length (68 + s.plen.toNat) ∧
      (d = [] → t.off = Config.emptyDatagramOff s.freeCount s.off (s.mem.read 0x30000) ∧
        t.freeCount = s.freeCount + 1) ∧
      (d ≠ [] → t.off.toNat = declaredHeader d ∧ t.freeCount = s.freeCount) ∧
      (∀ i < min d.length (68 + s.plen.toNat), t.mem.read (0x30000 + i) = d.getD i 0) ∧
      (∀ a : Nat, a < 0x30000 ∨ 0x30000 + min d.length (68 + s.plen.toNat) ≤ a →
        t.mem.read a = s.mem.read a)

/-- R137: fed any number of datagrams with other identifiers and then one with this session's, RECV discards the former
and completes on the latter, with no error, after one request per datagram. -/
def Obligations.RecvCompletesOnTheFirstMatch : Prop :=
  ∀ (s : State) (others : List (List Byte × Word)) (d : List Byte) (src : Word)
    (rest : List HostAction), Clean s → s.Inv → s.status.busy = false →
    s.status.phase = .opened →
    (∀ o ∈ others, HasId o.1 (68 + s.plen.toNat) ∧ declaredId o.1 ≠ s.id) →
    d ≠ [] → declaredHeader d + 8 ≤ min d.length (68 + s.plen.toNat) → declaredId d = s.id →
    s.script = issueCommand .recv ::
      ((others.map fun o => .answer (.recvfromOk o.1 o.2)) ++ .answer (.recvfromOk d src) :: rest) →
    ∃ t, runSteps (others.length + 2) s = .next t ∧ Clean t ∧
      t.status = endedStatus .none .opened ∧ t.script = rest ∧
      t.outbox = s.outbox ++ List.replicate (others.length + 1) (.recvfrom (68 + s.plen.toNat)) ∧
      t.rid = s.id ∧ t.rsrc = src ∧ t.rtype = d.getD (declaredHeader d) 0 ∧
      t.rtotlen.toNat = min d.length (68 + s.plen.toNat) ∧
      t.rdlen.toNat = min d.length (68 + s.plen.toNat) - declaredHeader d - 8 ∧
      (∀ i < min d.length (68 + s.plen.toNat) - declaredHeader d - 8,
        t.mem.read (0x40000 + i) = d.getD (declaredHeader d + 8 + i) 0) ∧
      t.seq = s.seq ∧ t.id = s.id ∧ t.csr = s.csr ∧ t.txlen = s.txlen

/-- R138: CLOSE ends an open session and tells the host; ID, SEQ, PLEN, FAMILY and SADDR, and everything else, keep
their values. In any other phase it fails with SessionState. -/
def Obligations.CloseEndsTheSession : Prop :=
  ∀ s : State, Clean s →
    (s.status.phase = .opened → exec .close s = .next { s with
      sock := .none
      outbox := s.outbox ++ [.close]
      status := endedStatus .none .noSession
      hstep := .idle }) ∧
    (s.status.phase ≠ .opened → exec .close s = .next { s with
      status := endedStatus .sessionState s.status.phase
      hstep := .idle })

/-! ## Rules about the whole machine -/

/-- R25: PHASE changes only as the transition table says, on the event it says. -/
def Obligations.PhaseFollowsTheTransitionTable : Prop :=
  ∀ s t : State, Clean s → s.Inv → step s = .next t → t.status.phase ≠ s.status.phase →
    ∃ a rest, s.script = a :: rest ∧
      ((a = .reset ∧ t.status.phase = .noSession) ∨
        (s.status.phase = .noSession ∧ t.status.phase = .opened ∧ s.hstep = .constructSocket ∧
          a = .answer .socketOk) ∨
        (s.status.phase = .opened ∧ t.status.phase = .sending ∧ a = issueCommand .send) ∨
        (s.status.phase = .sending ∧ t.status.phase = .opened ∧
          (a = .answer .sendtoFail ∨ ∃ n, a = .answer (.sendtoOk n))) ∨
        (s.status.phase = .opened ∧ t.status.phase = .awaiting ∧ a = issueCommand .recv) ∨
        (s.status.phase = .awaiting ∧ t.status.phase = .opened ∧
          (a = .answer .recvfromFail ∨ ∃ d src, a = .answer (.recvfromOk d src))) ∨
        (s.status.phase = .opened ∧ t.status.phase = .noSession ∧ a = issueCommand .close))

/-- R26: only a successful CONSTRUCT (or a reset) writes ID, so ID is constant while PHASE is not NOSESSION; and so are
FAMILY, SADDR and PLEN (R28 to R30). -/
def Obligations.SessionRegistersAreConstant : Prop :=
  ∀ s t : State, Clean s → s.Inv → step s = .next t →
    (t.id ≠ s.id ∨ t.saddr ≠ s.saddr ∨ t.family ≠ s.family →
      ∃ rest, s.script = .reset :: rest ∨
        (s.hstep = .constructSocket ∧ s.script = .answer .socketOk :: rest)) ∧
    (s.status.phase ≠ .noSession → t.status.phase ≠ .noSession →
      t.id = s.id ∧ t.saddr = s.saddr ∧ t.family = s.family ∧ t.plen = s.plen)

/-- R27: SEQ changes only by a successful CONSTRUCT or a reset, which leave 0, and by a successful SEND, which adds 1
modulo 65536. -/
def Obligations.SequenceIsWrittenOnlyBySendAndConstruct : Prop :=
  ∀ s t : State, Clean s → s.Inv → step s = .next t →
    t.seq = s.seq ∨
      (t.seq = 0 ∧ ∃ rest, s.script = .reset :: rest ∨
        (s.hstep = .constructSocket ∧ s.script = .answer .socketOk :: rest)) ∨
      (t.seq.toNat = (s.seq.toNat + 1) % 65536 ∧ s.hstep = .sendTx ∧ t.status.err = false ∧
        ∃ n rest, s.script = .answer (.sendtoOk n) :: rest)

/-- R37: the reply registers and RDATA change only by a reset, a successful DECODE or a successful RECV; no failing
command writes any of them. -/
def Obligations.RepliesAreWrittenOnlyBySuccess : Prop :=
  ∀ (s t : State) (a : HostAction) (rest : List HostAction), Clean s → s.Inv →
    s.script = a :: rest → step s = .next t → a ≠ .reset →
    ¬ (t.status.done = true ∧ t.status.err = false ∧
      ((∃ v, a = issueCommand (.decode v)) ∨ s.hstep = .recvWait)) →
    t.rtype = s.rtype ∧ t.rcode = s.rcode ∧ t.rcsum = s.rcsum ∧ t.rid = s.rid ∧
      t.rseq = s.rseq ∧ t.rdlen = s.rdlen ∧
      (∀ i < Buffer.rdata.size, t.mem.read (0x40000 + i) = s.mem.read (0x40000 + i))

/-- R38, R39: RTOTLEN and RSRC change only by a reset or a successful RECV, and TXCNT only by a reset or a successful
SEND. -/
def Obligations.ResultRegistersAreWrittenOnlyBySuccess : Prop :=
  ∀ (s t : State) (a : HostAction) (rest : List HostAction), Clean s → s.Inv →
    s.script = a :: rest → step s = .next t → a ≠ .reset →
    (¬ (t.status.done = true ∧ t.status.err = false ∧ s.hstep = .recvWait) →
      t.rtotlen = s.rtotlen ∧ t.rsrc = s.rsrc) ∧
    (¬ (t.status.done = true ∧ t.status.err = false ∧ s.hstep = .sendTx) → t.txcnt = s.txcnt)

/-- R65: a step hands the host at most one request, and none while another request is pending: only the issue of a
command with BUSY = 0, or the step that consumed the pending request's answer, makes one. -/
def Obligations.AtMostOneRequestIsPending : Prop :=
  ∀ s t : State, Clean s → s.Inv → step s = .next t →
    t.outbox = s.outbox ∨
      ∃ r, t.outbox = s.outbox ++ [r] ∧
        ((s.status.busy = false ∧ ∃ w rest, s.script = .write 0x00000 4 w :: rest) ∨
          (s.status.busy = true ∧ ∃ ans rest, s.script = .answer ans :: rest ∧ AnswersPending ans s))

/-- R19: a step of one instance changes no other instance. -/
def Obligations.InstancesShareNothing : Prop :=
  ∀ (k : Nat) (blocks : List State), (∀ s ∈ blocks, Clean s) →
    ∃ blocks', stepInstance k blocks = .next blocks' ∧ blocks'.length = blocks.length ∧
      (∀ j, j ≠ k → blocks'[j]? = blocks[j]?) ∧
      (∀ s, blocks[k]? = some s → ∃ t, step s = .next t ∧ blocks'[k]? = some t)
end

