-- ==== Sys2Proof/Laws/Checksum.lean ====
section
/-! SUPPORT. The checksum engine in numbers: bytes and halves, the words of a byte sequence, one fold pass, and the
fold loop as the function `folded`. -/

namespace Sys2Proof.Machine

/-! ### Bytes and halves -/

theorem be16_toNat (h l : Byte) : (be16 h l).toNat = 256 * h.toNat + l.toNat := by
  have hh := h.isLt
  have hl := l.isLt
  have e : h.toNat <<< 8 ||| l.toNat = h.toNat <<< 8 + l.toNat :=
    (Nat.shiftLeft_add_eq_or_of_lt hl h.toNat).symm
  have e2 : h.toNat <<< 8 < 65536 := by
    rw [Nat.shiftLeft_eq]
    omega
  simp only [be16, BitVec.toNat_or, BitVec.toNat_shiftLeft, BitVec.toNat_setWidth]
  rw [Nat.mod_eq_of_lt (a := h.toNat) (by omega), Nat.mod_eq_of_lt (a := l.toNat) (by omega),
    Nat.mod_eq_of_lt (a := h.toNat <<< 8) e2, e, Nat.shiftLeft_eq]
  omega

theorem hi8_toNat (v : Half) : (hi8 v).toNat = v.toNat / 256 := by
  have := v.isLt
  simp [hi8, BitVec.extractLsb'_toNat, Nat.shiftRight_eq_div_pow]
  omega

theorem lo8_toNat (v : Half) : (lo8 v).toNat = v.toNat % 256 := by
  simp [lo8, BitVec.extractLsb'_toNat]

/-- A field written big-endian reads back as itself (spec/20_memory.md R50). -/
@[simp] theorem be16_hi8_lo8 (v : Half) : be16 (hi8 v) (lo8 v) = v := by
  apply BitVec.eq_of_toNat_eq
  rw [be16_toNat, hi8_toNat, lo8_toNat]
  omega

/-! ### Words -/

/-- The exact sum of words. -/
def wordTotal (ws : List Half) : Nat := (ws.map BitVec.toNat).sum

@[simp] theorem wordTotal_nil : wordTotal [] = 0 := rfl

@[simp] theorem wordTotal_cons (w : Half) (ws : List Half) :
    wordTotal (w :: ws) = w.toNat + wordTotal ws := rfl

theorem wordTotal_le (ws : List Half) : wordTotal ws ≤ 0xFFFF * ws.length := by
  induction ws with
  | nil => simp
  | cons w ws ih =>
    have := w.isLt
    simp
    omega

/-- The 32-bit sum is the exact sum where that fits. -/
theorem sumWords_toNat (ws : List Half) (h : wordTotal ws < 2 ^ 32) :
    (sumWords ws).toNat = wordTotal ws := by
  have key : ∀ (ws : List Half) (acc : Word), acc.toNat + wordTotal ws < 2 ^ 32 →
      (ws.foldl (fun acc w => acc + w.setWidth 32) acc).toNat = acc.toNat + wordTotal ws := by
    intro ws
    induction ws with
    | nil => intro acc _; rfl
    | cons w ws ih =>
      intro acc hb
      have hw := w.isLt
      rw [wordTotal_cons] at hb
      have e : (acc + w.setWidth 32).toNat = acc.toNat + w.toNat := by
        rw [BitVec.toNat_add, BitVec.toNat_setWidth]
        omega
      rw [List.foldl_cons, ih _ (by rw [e]; omega), e, wordTotal_cons]
      omega
  have := key ws 0 (by simpa using h)
  simpa [sumWords] using this

theorem length_wordsOf : ∀ bs : List Byte, (wordsOf bs).length = bs.length / 2
  | [] => rfl
  | [_] => by simp [wordsOf]
  | h :: l :: bs => by
    simp only [wordsOf, List.length_cons, length_wordsOf bs]
    omega

/-- The words by their index: word k is be16(s[2k], s[2k+1]) (R91). -/
theorem wordsOf_eq_map : ∀ bs : List Byte, wordsOf bs =
    (List.range (bs.length / 2)).map fun k => be16 (bs.getD (2 * k) 0) (bs.getD (2 * k + 1) 0)
  | [] => rfl
  | [_] => by simp [wordsOf]
  | h :: l :: bs => by
    have e : (h :: l :: bs).length / 2 = bs.length / 2 + 1 := by
      simp only [List.length_cons]
      omega
    rw [e, List.range_succ_eq_map, List.map_cons, List.map_map]
    simp only [wordsOf, wordsOf_eq_map bs]
    congr 1

theorem fullSum_eq (bs : List Byte) : fullSum bs = wordTotal (wordsOf bs) := by
  rw [wordsOf_eq_map, wordTotal, List.map_map]
  rfl

theorem countedSum_eq (bs : List Byte) :
    countedSum bs = wordTotal (countedWords (wordsOf bs)) := by
  match bs with
  | [] => rfl
  | [_] => simp [countedSum, wordsOf, countedWords]
  | [h, l] => simp [countedSum, wordsOf, countedWords]
  | [h, l, _] => simp [countedSum, wordsOf, countedWords]
  | h :: l :: c1 :: c0 :: bs =>
    have e : (h :: l :: c1 :: c0 :: bs).length / 2 = bs.length / 2 + 1 + 1 := by
      simp only [List.length_cons]
      omega
    unfold countedSum
    rw [e, List.range_succ_eq_map, List.map_cons, List.map_map, List.range_succ_eq_map,
      List.map_cons, List.map_map]
    simp only [wordsOf, countedWords, wordTotal_cons, ← fullSum_eq]
    simp [fullSum, Function.comp_def, Nat.mul_add]

theorem length_countedWords_le (ws : List Half) : (countedWords ws).length ≤ ws.length := by
  match ws with
  | [] => simp [countedWords]
  | [_] => simp [countedWords]
  | _ :: _ :: _ => simp [countedWords]

/-! ### The fold -/

theorem acc_lo_toNat (a : Word) : (a.extractLsb' 0 16).toNat = a.toNat % 65536 := by
  simp [BitVec.extractLsb'_toNat]

theorem acc_hi_toNat (a : Word) : (a.extractLsb' 16 16).toNat = a.toNat / 65536 := by
  have := a.isLt
  simp [BitVec.extractLsb'_toNat, Nat.shiftRight_eq_div_pow]
  omega

/-- The loop condition: acc[31:16] = 0 says that the sum fits 16 bits. -/
theorem acc_hi_eq_zero_iff (a : Word) : a.extractLsb' 16 16 = 0 ↔ a.toNat < 65536 := by
  constructor
  · intro h
    have := acc_hi_toNat a
    rw [h] at this
    simp at this
    omega
  · intro h
    apply BitVec.eq_of_toNat_eq
    rw [acc_hi_toNat]
    simp
    omega

/-- A pass never overflows. -/
theorem foldPass_toNat (a : Word) : (foldPass a).toNat = a.toNat % 65536 + a.toNat / 65536 := by
  have := a.isLt
  simp only [foldPass, BitVec.toNat_add, BitVec.toNat_setWidth, acc_lo_toNat, acc_hi_toNat]
  omega

/-- A pass keeps the residue modulo 0xFFFF, and 0 exactly at 0. -/
theorem folded_foldPass (a : Word) : folded (foldPass a).toNat = folded a.toNat := by
  have := a.isLt
  rw [foldPass_toNat]
  unfold folded
  split <;> split <;> omega

theorem folded_of_lt {n : Nat} (h : n < 65536) : folded n = n := by
  unfold folded
  split <;> omega

theorem folded_lt (n : Nat) : folded n < 65536 := by
  unfold folded
  split <;> omega

theorem folded_eq_zero_iff (n : Nat) : folded n = 0 ↔ n = 0 := by
  unfold folded
  split <;> omega

theorem folded_mod (n : Nat) : folded n % 65535 = n % 65535 := by
  unfold folded
  split <;> omega

/-- Two passes end the loop from every 32-bit sum, at the folded value. -/
theorem foldLoop_two_toNat (a : Word) : (foldLoop 2 a).toNat = folded a.toNat := by
  have ha := a.isLt
  simp only [foldLoop, acc_hi_eq_zero_iff]
  split
  · rename_i h
    exact (folded_of_lt h).symm
  · split
    · rename_i h
      rw [← folded_foldPass, folded_of_lt h]
    · rw [← folded_foldPass, ← folded_foldPass, folded_of_lt]
      have h1 := foldPass_toNat a
      have h2 := foldPass_toNat (foldPass a)
      omega

theorem foldedSum_toNat (ws : List Half) (h : wordTotal ws < 2 ^ 32) :
    (foldedSum ws).toNat = folded (wordTotal ws) := by
  have hl := folded_lt (wordTotal ws)
  rw [foldedSum, acc_lo_toNat, foldLoop_two_toNat, sumWords_toNat ws h]
  omega

theorem complement_toNat (v : Half) : (~~~v).toNat = 65535 - v.toNat := by
  simp [BitVec.toNat_not]

theorem countedSum_lt (bs : List Byte) (h : bs.length ≤ 65535) : countedSum bs < 2 ^ 32 := by
  have h1 := wordTotal_le (countedWords (wordsOf bs))
  have h2 := length_countedWords_le (wordsOf bs)
  have h3 := length_wordsOf bs
  rw [countedSum_eq]
  omega

/-- Checksum(s) as a number. -/
theorem checksum_toNat (bs : List Byte) (h : bs.length ≤ 65535) :
    (checksum bs).toNat = 65535 - folded (countedSum bs) := by
  have hl := countedSum_lt bs h
  rw [countedSum_eq] at hl
  rw [checksum, complement_toNat, foldedSum_toNat _ hl, countedSum_eq]

end Sys2Proof.Machine
end

