-- ==== Sys2Proof/Laws/Config.lean ====
section
/-! SUPPORT. The bounds of MAX_PLEN (spec/00_scope.md R9) and of the buffer sizes. -/

namespace Sys2Proof

theorem Config.maxPlen_bounds : 56 ≤ Config.maxPlen ∧ Config.maxPlen ≤ 65467 := by
  have := Config.maxPlenAbove56.isLt
  unfold Config.maxPlen
  omega

namespace Machine

theorem Buffer.size_payload : Buffer.payload.size = Config.maxPlen := rfl
theorem Buffer.size_txbuf : Buffer.txbuf.size = Config.maxPlen + 8 := rfl
theorem Buffer.size_rxbuf : Buffer.rxbuf.size = Config.maxPlen + 68 := rfl
theorem Buffer.size_rdata : Buffer.rdata.size = Config.maxPlen + 60 := rfl

/-- Every buffer fits in its 64 KiB window (R53). -/
theorem Buffer.size_lt (b : Buffer) : b.size < 65536 := by
  have := Config.maxPlen_bounds
  cases b
  · rw [Buffer.size_payload]; omega
  · rw [Buffer.size_txbuf]; omega
  · rw [Buffer.size_rxbuf]; omega
  · rw [Buffer.size_rdata]; omega

/-- RXCAP = 68 + PLEN (R130). -/
theorem rxCapacity_eq (s : State) : rxCapacity s = 68 + s.plen.toNat := rfl

end Machine

end Sys2Proof
end

