-- ==== Sys2Proof/Laws/State.lean ====
section
/-! SUPPORT. One lemma per field of State for each named update of Machine/Ops.lean and for reset, and one per field of
STATUS for each of its updates: all true by rfl. -/

namespace Sys2Proof.Machine

section StatusFields

variable (e : ErrorCode) (p : Phase) (st : Status)

@[simp] theorem Status.issued_busy : (Status.issued st).busy = st.busy := rfl
@[simp] theorem Status.issued_done : (Status.issued st).done = false := rfl
@[simp] theorem Status.issued_err : (Status.issued st).err = false := rfl
@[simp] theorem Status.issued_ecode : (Status.issued st).ecode = .none := rfl
@[simp] theorem Status.issued_phase : (Status.issued st).phase = st.phase := rfl
@[simp] theorem Status.completed_busy : (Status.completed e st).busy = false := rfl
@[simp] theorem Status.completed_done : (Status.completed e st).done = true := rfl
@[simp] theorem Status.completed_err : (Status.completed e st).err = decide (e ≠ .none) := rfl
@[simp] theorem Status.completed_ecode : (Status.completed e st).ecode = e := rfl
@[simp] theorem Status.completed_phase : (Status.completed e st).phase = st.phase := rfl
@[simp] theorem Status.withPhase_busy : (Status.withPhase p st).busy = st.busy := rfl
@[simp] theorem Status.withPhase_done : (Status.withPhase p st).done = st.done := rfl
@[simp] theorem Status.withPhase_err : (Status.withPhase p st).err = st.err := rfl
@[simp] theorem Status.withPhase_ecode : (Status.withPhase p st).ecode = st.ecode := rfl
@[simp] theorem Status.withPhase_phase : (Status.withPhase p st).phase = p := rfl
@[simp] theorem Status.waiting_busy : (Status.waiting st).busy = true := rfl
@[simp] theorem Status.waiting_done : (Status.waiting st).done = st.done := rfl
@[simp] theorem Status.waiting_err : (Status.waiting st).err = st.err := rfl
@[simp] theorem Status.waiting_ecode : (Status.waiting st).ecode = st.ecode := rfl
@[simp] theorem Status.waiting_phase : (Status.waiting st).phase = st.phase := rfl

end StatusFields

section StateFields

variable (s : State)

@[simp] theorem recordIssue_cmd (w : Word) : (recordIssue w s).cmd = w := rfl
@[simp] theorem recordIssue_status (w : Word) : (recordIssue w s).status = s.status.issued := rfl
@[simp] theorem recordIssue_arg (w : Word) : (recordIssue w s).arg = s.arg := rfl
@[simp] theorem recordIssue_dest (w : Word) : (recordIssue w s).dest = s.dest := rfl
@[simp] theorem recordIssue_id (w : Word) : (recordIssue w s).id = s.id := rfl
@[simp] theorem recordIssue_seq (w : Word) : (recordIssue w s).seq = s.seq := rfl
@[simp] theorem recordIssue_plen (w : Word) : (recordIssue w s).plen = s.plen := rfl
@[simp] theorem recordIssue_family (w : Word) : (recordIssue w s).family = s.family := rfl
@[simp] theorem recordIssue_csr (w : Word) : (recordIssue w s).csr = s.csr := rfl
@[simp] theorem recordIssue_off (w : Word) : (recordIssue w s).off = s.off := rfl
@[simp] theorem recordIssue_txlen (w : Word) : (recordIssue w s).txlen = s.txlen := rfl
@[simp] theorem recordIssue_rxlen (w : Word) : (recordIssue w s).rxlen = s.rxlen := rfl
@[simp] theorem recordIssue_rtype (w : Word) : (recordIssue w s).rtype = s.rtype := rfl
@[simp] theorem recordIssue_rcode (w : Word) : (recordIssue w s).rcode = s.rcode := rfl
@[simp] theorem recordIssue_rcsum (w : Word) : (recordIssue w s).rcsum = s.rcsum := rfl
@[simp] theorem recordIssue_rid (w : Word) : (recordIssue w s).rid = s.rid := rfl
@[simp] theorem recordIssue_rseq (w : Word) : (recordIssue w s).rseq = s.rseq := rfl
@[simp] theorem recordIssue_rdlen (w : Word) : (recordIssue w s).rdlen = s.rdlen := rfl
@[simp] theorem recordIssue_rtotlen (w : Word) : (recordIssue w s).rtotlen = s.rtotlen := rfl
@[simp] theorem recordIssue_rsrc (w : Word) : (recordIssue w s).rsrc = s.rsrc := rfl
@[simp] theorem recordIssue_txcnt (w : Word) : (recordIssue w s).txcnt = s.txcnt := rfl
@[simp] theorem recordIssue_saddr (w : Word) : (recordIssue w s).saddr = s.saddr := rfl
@[simp] theorem recordIssue_mem (w : Word) : (recordIssue w s).mem = s.mem := rfl
@[simp] theorem recordIssue_sock (w : Word) : (recordIssue w s).sock = s.sock := rfl
@[simp] theorem recordIssue_hstep (w : Word) : (recordIssue w s).hstep = s.hstep := rfl
@[simp] theorem recordIssue_pendId (w : Word) : (recordIssue w s).pendId = s.pendId := rfl
@[simp] theorem recordIssue_pendPlen (w : Word) : (recordIssue w s).pendPlen = s.pendPlen := rfl
@[simp] theorem recordIssue_pendAddr (w : Word) : (recordIssue w s).pendAddr = s.pendAddr := rfl
@[simp] theorem recordIssue_pendBefore (w : Word) : (recordIssue w s).pendBefore = s.pendBefore := rfl
@[simp] theorem recordIssue_violations (w : Word) : (recordIssue w s).violations = s.violations := rfl
@[simp] theorem recordIssue_script (w : Word) : (recordIssue w s).script = s.script := rfl
@[simp] theorem recordIssue_outbox (w : Word) : (recordIssue w s).outbox = s.outbox := rfl
@[simp] theorem recordIssue_readData (w : Word) : (recordIssue w s).readData = s.readData := rfl
@[simp] theorem recordIssue_freeCount (w : Word) : (recordIssue w s).freeCount = s.freeCount := rfl

@[simp] theorem complete_cmd (e : ErrorCode) : (complete e s).cmd = s.cmd := rfl
@[simp] theorem complete_status (e : ErrorCode) : (complete e s).status = s.status.completed e := rfl
@[simp] theorem complete_arg (e : ErrorCode) : (complete e s).arg = s.arg := rfl
@[simp] theorem complete_dest (e : ErrorCode) : (complete e s).dest = s.dest := rfl
@[simp] theorem complete_id (e : ErrorCode) : (complete e s).id = s.id := rfl
@[simp] theorem complete_seq (e : ErrorCode) : (complete e s).seq = s.seq := rfl
@[simp] theorem complete_plen (e : ErrorCode) : (complete e s).plen = s.plen := rfl
@[simp] theorem complete_family (e : ErrorCode) : (complete e s).family = s.family := rfl
@[simp] theorem complete_csr (e : ErrorCode) : (complete e s).csr = s.csr := rfl
@[simp] theorem complete_off (e : ErrorCode) : (complete e s).off = s.off := rfl
@[simp] theorem complete_txlen (e : ErrorCode) : (complete e s).txlen = s.txlen := rfl
@[simp] theorem complete_rxlen (e : ErrorCode) : (complete e s).rxlen = s.rxlen := rfl
@[simp] theorem complete_rtype (e : ErrorCode) : (complete e s).rtype = s.rtype := rfl
@[simp] theorem complete_rcode (e : ErrorCode) : (complete e s).rcode = s.rcode := rfl
@[simp] theorem complete_rcsum (e : ErrorCode) : (complete e s).rcsum = s.rcsum := rfl
@[simp] theorem complete_rid (e : ErrorCode) : (complete e s).rid = s.rid := rfl
@[simp] theorem complete_rseq (e : ErrorCode) : (complete e s).rseq = s.rseq := rfl
@[simp] theorem complete_rdlen (e : ErrorCode) : (complete e s).rdlen = s.rdlen := rfl
@[simp] theorem complete_rtotlen (e : ErrorCode) : (complete e s).rtotlen = s.rtotlen := rfl
@[simp] theorem complete_rsrc (e : ErrorCode) : (complete e s).rsrc = s.rsrc := rfl
@[simp] theorem complete_txcnt (e : ErrorCode) : (complete e s).txcnt = s.txcnt := rfl
@[simp] theorem complete_saddr (e : ErrorCode) : (complete e s).saddr = s.saddr := rfl
@[simp] theorem complete_mem (e : ErrorCode) : (complete e s).mem = s.mem := rfl
@[simp] theorem complete_sock (e : ErrorCode) : (complete e s).sock = s.sock := rfl
@[simp] theorem complete_hstep (e : ErrorCode) : (complete e s).hstep = .idle := rfl
@[simp] theorem complete_pendId (e : ErrorCode) : (complete e s).pendId = s.pendId := rfl
@[simp] theorem complete_pendPlen (e : ErrorCode) : (complete e s).pendPlen = s.pendPlen := rfl
@[simp] theorem complete_pendAddr (e : ErrorCode) : (complete e s).pendAddr = s.pendAddr := rfl
@[simp] theorem complete_pendBefore (e : ErrorCode) : (complete e s).pendBefore = s.pendBefore := rfl
@[simp] theorem complete_violations (e : ErrorCode) : (complete e s).violations = s.violations := rfl
@[simp] theorem complete_script (e : ErrorCode) : (complete e s).script = s.script := rfl
@[simp] theorem complete_outbox (e : ErrorCode) : (complete e s).outbox = s.outbox := rfl
@[simp] theorem complete_readData (e : ErrorCode) : (complete e s).readData = s.readData := rfl
@[simp] theorem complete_freeCount (e : ErrorCode) : (complete e s).freeCount = s.freeCount := rfl

@[simp] theorem setPhase_cmd (p : Phase) : (setPhase p s).cmd = s.cmd := rfl
@[simp] theorem setPhase_status (p : Phase) : (setPhase p s).status = s.status.withPhase p := rfl
@[simp] theorem setPhase_arg (p : Phase) : (setPhase p s).arg = s.arg := rfl
@[simp] theorem setPhase_dest (p : Phase) : (setPhase p s).dest = s.dest := rfl
@[simp] theorem setPhase_id (p : Phase) : (setPhase p s).id = s.id := rfl
@[simp] theorem setPhase_seq (p : Phase) : (setPhase p s).seq = s.seq := rfl
@[simp] theorem setPhase_plen (p : Phase) : (setPhase p s).plen = s.plen := rfl
@[simp] theorem setPhase_family (p : Phase) : (setPhase p s).family = s.family := rfl
@[simp] theorem setPhase_csr (p : Phase) : (setPhase p s).csr = s.csr := rfl
@[simp] theorem setPhase_off (p : Phase) : (setPhase p s).off = s.off := rfl
@[simp] theorem setPhase_txlen (p : Phase) : (setPhase p s).txlen = s.txlen := rfl
@[simp] theorem setPhase_rxlen (p : Phase) : (setPhase p s).rxlen = s.rxlen := rfl
@[simp] theorem setPhase_rtype (p : Phase) : (setPhase p s).rtype = s.rtype := rfl
@[simp] theorem setPhase_rcode (p : Phase) : (setPhase p s).rcode = s.rcode := rfl
@[simp] theorem setPhase_rcsum (p : Phase) : (setPhase p s).rcsum = s.rcsum := rfl
@[simp] theorem setPhase_rid (p : Phase) : (setPhase p s).rid = s.rid := rfl
@[simp] theorem setPhase_rseq (p : Phase) : (setPhase p s).rseq = s.rseq := rfl
@[simp] theorem setPhase_rdlen (p : Phase) : (setPhase p s).rdlen = s.rdlen := rfl
@[simp] theorem setPhase_rtotlen (p : Phase) : (setPhase p s).rtotlen = s.rtotlen := rfl
@[simp] theorem setPhase_rsrc (p : Phase) : (setPhase p s).rsrc = s.rsrc := rfl
@[simp] theorem setPhase_txcnt (p : Phase) : (setPhase p s).txcnt = s.txcnt := rfl
@[simp] theorem setPhase_saddr (p : Phase) : (setPhase p s).saddr = s.saddr := rfl
@[simp] theorem setPhase_mem (p : Phase) : (setPhase p s).mem = s.mem := rfl
@[simp] theorem setPhase_sock (p : Phase) : (setPhase p s).sock = s.sock := rfl
@[simp] theorem setPhase_hstep (p : Phase) : (setPhase p s).hstep = s.hstep := rfl
@[simp] theorem setPhase_pendId (p : Phase) : (setPhase p s).pendId = s.pendId := rfl
@[simp] theorem setPhase_pendPlen (p : Phase) : (setPhase p s).pendPlen = s.pendPlen := rfl
@[simp] theorem setPhase_pendAddr (p : Phase) : (setPhase p s).pendAddr = s.pendAddr := rfl
@[simp] theorem setPhase_pendBefore (p : Phase) : (setPhase p s).pendBefore = s.pendBefore := rfl
@[simp] theorem setPhase_violations (p : Phase) : (setPhase p s).violations = s.violations := rfl
@[simp] theorem setPhase_script (p : Phase) : (setPhase p s).script = s.script := rfl
@[simp] theorem setPhase_outbox (p : Phase) : (setPhase p s).outbox = s.outbox := rfl
@[simp] theorem setPhase_readData (p : Phase) : (setPhase p s).readData = s.readData := rfl
@[simp] theorem setPhase_freeCount (p : Phase) : (setPhase p s).freeCount = s.freeCount := rfl

@[simp] theorem setBusy_cmd : (setBusy s).cmd = s.cmd := rfl
@[simp] theorem setBusy_status : (setBusy s).status = s.status.waiting := rfl
@[simp] theorem setBusy_arg : (setBusy s).arg = s.arg := rfl
@[simp] theorem setBusy_dest : (setBusy s).dest = s.dest := rfl
@[simp] theorem setBusy_id : (setBusy s).id = s.id := rfl
@[simp] theorem setBusy_seq : (setBusy s).seq = s.seq := rfl
@[simp] theorem setBusy_plen : (setBusy s).plen = s.plen := rfl
@[simp] theorem setBusy_family : (setBusy s).family = s.family := rfl
@[simp] theorem setBusy_csr : (setBusy s).csr = s.csr := rfl
@[simp] theorem setBusy_off : (setBusy s).off = s.off := rfl
@[simp] theorem setBusy_txlen : (setBusy s).txlen = s.txlen := rfl
@[simp] theorem setBusy_rxlen : (setBusy s).rxlen = s.rxlen := rfl
@[simp] theorem setBusy_rtype : (setBusy s).rtype = s.rtype := rfl
@[simp] theorem setBusy_rcode : (setBusy s).rcode = s.rcode := rfl
@[simp] theorem setBusy_rcsum : (setBusy s).rcsum = s.rcsum := rfl
@[simp] theorem setBusy_rid : (setBusy s).rid = s.rid := rfl
@[simp] theorem setBusy_rseq : (setBusy s).rseq = s.rseq := rfl
@[simp] theorem setBusy_rdlen : (setBusy s).rdlen = s.rdlen := rfl
@[simp] theorem setBusy_rtotlen : (setBusy s).rtotlen = s.rtotlen := rfl
@[simp] theorem setBusy_rsrc : (setBusy s).rsrc = s.rsrc := rfl
@[simp] theorem setBusy_txcnt : (setBusy s).txcnt = s.txcnt := rfl
@[simp] theorem setBusy_saddr : (setBusy s).saddr = s.saddr := rfl
@[simp] theorem setBusy_mem : (setBusy s).mem = s.mem := rfl
@[simp] theorem setBusy_sock : (setBusy s).sock = s.sock := rfl
@[simp] theorem setBusy_hstep : (setBusy s).hstep = s.hstep := rfl
@[simp] theorem setBusy_pendId : (setBusy s).pendId = s.pendId := rfl
@[simp] theorem setBusy_pendPlen : (setBusy s).pendPlen = s.pendPlen := rfl
@[simp] theorem setBusy_pendAddr : (setBusy s).pendAddr = s.pendAddr := rfl
@[simp] theorem setBusy_pendBefore : (setBusy s).pendBefore = s.pendBefore := rfl
@[simp] theorem setBusy_violations : (setBusy s).violations = s.violations := rfl
@[simp] theorem setBusy_script : (setBusy s).script = s.script := rfl
@[simp] theorem setBusy_outbox : (setBusy s).outbox = s.outbox := rfl
@[simp] theorem setBusy_readData : (setBusy s).readData = s.readData := rfl
@[simp] theorem setBusy_freeCount : (setBusy s).freeCount = s.freeCount := rfl

@[simp] theorem ask_cmd (p : BusyStep) (r : HostRequest) : (ask p r s).cmd = s.cmd := rfl
@[simp] theorem ask_status (p : BusyStep) (r : HostRequest) : (ask p r s).status = s.status := rfl
@[simp] theorem ask_arg (p : BusyStep) (r : HostRequest) : (ask p r s).arg = s.arg := rfl
@[simp] theorem ask_dest (p : BusyStep) (r : HostRequest) : (ask p r s).dest = s.dest := rfl
@[simp] theorem ask_id (p : BusyStep) (r : HostRequest) : (ask p r s).id = s.id := rfl
@[simp] theorem ask_seq (p : BusyStep) (r : HostRequest) : (ask p r s).seq = s.seq := rfl
@[simp] theorem ask_plen (p : BusyStep) (r : HostRequest) : (ask p r s).plen = s.plen := rfl
@[simp] theorem ask_family (p : BusyStep) (r : HostRequest) : (ask p r s).family = s.family := rfl
@[simp] theorem ask_csr (p : BusyStep) (r : HostRequest) : (ask p r s).csr = s.csr := rfl
@[simp] theorem ask_off (p : BusyStep) (r : HostRequest) : (ask p r s).off = s.off := rfl
@[simp] theorem ask_txlen (p : BusyStep) (r : HostRequest) : (ask p r s).txlen = s.txlen := rfl
@[simp] theorem ask_rxlen (p : BusyStep) (r : HostRequest) : (ask p r s).rxlen = s.rxlen := rfl
@[simp] theorem ask_rtype (p : BusyStep) (r : HostRequest) : (ask p r s).rtype = s.rtype := rfl
@[simp] theorem ask_rcode (p : BusyStep) (r : HostRequest) : (ask p r s).rcode = s.rcode := rfl
@[simp] theorem ask_rcsum (p : BusyStep) (r : HostRequest) : (ask p r s).rcsum = s.rcsum := rfl
@[simp] theorem ask_rid (p : BusyStep) (r : HostRequest) : (ask p r s).rid = s.rid := rfl
@[simp] theorem ask_rseq (p : BusyStep) (r : HostRequest) : (ask p r s).rseq = s.rseq := rfl
@[simp] theorem ask_rdlen (p : BusyStep) (r : HostRequest) : (ask p r s).rdlen = s.rdlen := rfl
@[simp] theorem ask_rtotlen (p : BusyStep) (r : HostRequest) : (ask p r s).rtotlen = s.rtotlen := rfl
@[simp] theorem ask_rsrc (p : BusyStep) (r : HostRequest) : (ask p r s).rsrc = s.rsrc := rfl
@[simp] theorem ask_txcnt (p : BusyStep) (r : HostRequest) : (ask p r s).txcnt = s.txcnt := rfl
@[simp] theorem ask_saddr (p : BusyStep) (r : HostRequest) : (ask p r s).saddr = s.saddr := rfl
@[simp] theorem ask_mem (p : BusyStep) (r : HostRequest) : (ask p r s).mem = s.mem := rfl
@[simp] theorem ask_sock (p : BusyStep) (r : HostRequest) : (ask p r s).sock = s.sock := rfl
@[simp] theorem ask_hstep (p : BusyStep) (r : HostRequest) : (ask p r s).hstep = p := rfl
@[simp] theorem ask_pendId (p : BusyStep) (r : HostRequest) : (ask p r s).pendId = s.pendId := rfl
@[simp] theorem ask_pendPlen (p : BusyStep) (r : HostRequest) : (ask p r s).pendPlen = s.pendPlen := rfl
@[simp] theorem ask_pendAddr (p : BusyStep) (r : HostRequest) : (ask p r s).pendAddr = s.pendAddr := rfl
@[simp] theorem ask_pendBefore (p : BusyStep) (r : HostRequest) : (ask p r s).pendBefore = s.pendBefore := rfl
@[simp] theorem ask_violations (p : BusyStep) (r : HostRequest) : (ask p r s).violations = s.violations := rfl
@[simp] theorem ask_script (p : BusyStep) (r : HostRequest) : (ask p r s).script = s.script := rfl
@[simp] theorem ask_outbox (p : BusyStep) (r : HostRequest) : (ask p r s).outbox = s.outbox ++ [r] := rfl
@[simp] theorem ask_readData (p : BusyStep) (r : HostRequest) : (ask p r s).readData = s.readData := rfl
@[simp] theorem ask_freeCount (p : BusyStep) (r : HostRequest) : (ask p r s).freeCount = s.freeCount := rfl

@[simp] theorem notify_cmd (r : HostRequest) : (notify r s).cmd = s.cmd := rfl
@[simp] theorem notify_status (r : HostRequest) : (notify r s).status = s.status := rfl
@[simp] theorem notify_arg (r : HostRequest) : (notify r s).arg = s.arg := rfl
@[simp] theorem notify_dest (r : HostRequest) : (notify r s).dest = s.dest := rfl
@[simp] theorem notify_id (r : HostRequest) : (notify r s).id = s.id := rfl
@[simp] theorem notify_seq (r : HostRequest) : (notify r s).seq = s.seq := rfl
@[simp] theorem notify_plen (r : HostRequest) : (notify r s).plen = s.plen := rfl
@[simp] theorem notify_family (r : HostRequest) : (notify r s).family = s.family := rfl
@[simp] theorem notify_csr (r : HostRequest) : (notify r s).csr = s.csr := rfl
@[simp] theorem notify_off (r : HostRequest) : (notify r s).off = s.off := rfl
@[simp] theorem notify_txlen (r : HostRequest) : (notify r s).txlen = s.txlen := rfl
@[simp] theorem notify_rxlen (r : HostRequest) : (notify r s).rxlen = s.rxlen := rfl
@[simp] theorem notify_rtype (r : HostRequest) : (notify r s).rtype = s.rtype := rfl
@[simp] theorem notify_rcode (r : HostRequest) : (notify r s).rcode = s.rcode := rfl
@[simp] theorem notify_rcsum (r : HostRequest) : (notify r s).rcsum = s.rcsum := rfl
@[simp] theorem notify_rid (r : HostRequest) : (notify r s).rid = s.rid := rfl
@[simp] theorem notify_rseq (r : HostRequest) : (notify r s).rseq = s.rseq := rfl
@[simp] theorem notify_rdlen (r : HostRequest) : (notify r s).rdlen = s.rdlen := rfl
@[simp] theorem notify_rtotlen (r : HostRequest) : (notify r s).rtotlen = s.rtotlen := rfl
@[simp] theorem notify_rsrc (r : HostRequest) : (notify r s).rsrc = s.rsrc := rfl
@[simp] theorem notify_txcnt (r : HostRequest) : (notify r s).txcnt = s.txcnt := rfl
@[simp] theorem notify_saddr (r : HostRequest) : (notify r s).saddr = s.saddr := rfl
@[simp] theorem notify_mem (r : HostRequest) : (notify r s).mem = s.mem := rfl
@[simp] theorem notify_sock (r : HostRequest) : (notify r s).sock = s.sock := rfl
@[simp] theorem notify_hstep (r : HostRequest) : (notify r s).hstep = s.hstep := rfl
@[simp] theorem notify_pendId (r : HostRequest) : (notify r s).pendId = s.pendId := rfl
@[simp] theorem notify_pendPlen (r : HostRequest) : (notify r s).pendPlen = s.pendPlen := rfl
@[simp] theorem notify_pendAddr (r : HostRequest) : (notify r s).pendAddr = s.pendAddr := rfl
@[simp] theorem notify_pendBefore (r : HostRequest) : (notify r s).pendBefore = s.pendBefore := rfl
@[simp] theorem notify_violations (r : HostRequest) : (notify r s).violations = s.violations := rfl
@[simp] theorem notify_script (r : HostRequest) : (notify r s).script = s.script := rfl
@[simp] theorem notify_outbox (r : HostRequest) : (notify r s).outbox = s.outbox ++ [r] := rfl
@[simp] theorem notify_readData (r : HostRequest) : (notify r s).readData = s.readData := rfl
@[simp] theorem notify_freeCount (r : HostRequest) : (notify r s).freeCount = s.freeCount := rfl

@[simp] theorem violate_cmd (a : HostAction) : (violate a s).cmd = s.cmd := rfl
@[simp] theorem violate_status (a : HostAction) : (violate a s).status = s.status := rfl
@[simp] theorem violate_arg (a : HostAction) : (violate a s).arg = s.arg := rfl
@[simp] theorem violate_dest (a : HostAction) : (violate a s).dest = s.dest := rfl
@[simp] theorem violate_id (a : HostAction) : (violate a s).id = s.id := rfl
@[simp] theorem violate_seq (a : HostAction) : (violate a s).seq = s.seq := rfl
@[simp] theorem violate_plen (a : HostAction) : (violate a s).plen = s.plen := rfl
@[simp] theorem violate_family (a : HostAction) : (violate a s).family = s.family := rfl
@[simp] theorem violate_csr (a : HostAction) : (violate a s).csr = s.csr := rfl
@[simp] theorem violate_off (a : HostAction) : (violate a s).off = s.off := rfl
@[simp] theorem violate_txlen (a : HostAction) : (violate a s).txlen = s.txlen := rfl
@[simp] theorem violate_rxlen (a : HostAction) : (violate a s).rxlen = s.rxlen := rfl
@[simp] theorem violate_rtype (a : HostAction) : (violate a s).rtype = s.rtype := rfl
@[simp] theorem violate_rcode (a : HostAction) : (violate a s).rcode = s.rcode := rfl
@[simp] theorem violate_rcsum (a : HostAction) : (violate a s).rcsum = s.rcsum := rfl
@[simp] theorem violate_rid (a : HostAction) : (violate a s).rid = s.rid := rfl
@[simp] theorem violate_rseq (a : HostAction) : (violate a s).rseq = s.rseq := rfl
@[simp] theorem violate_rdlen (a : HostAction) : (violate a s).rdlen = s.rdlen := rfl
@[simp] theorem violate_rtotlen (a : HostAction) : (violate a s).rtotlen = s.rtotlen := rfl
@[simp] theorem violate_rsrc (a : HostAction) : (violate a s).rsrc = s.rsrc := rfl
@[simp] theorem violate_txcnt (a : HostAction) : (violate a s).txcnt = s.txcnt := rfl
@[simp] theorem violate_saddr (a : HostAction) : (violate a s).saddr = s.saddr := rfl
@[simp] theorem violate_mem (a : HostAction) : (violate a s).mem = s.mem := rfl
@[simp] theorem violate_sock (a : HostAction) : (violate a s).sock = s.sock := rfl
@[simp] theorem violate_hstep (a : HostAction) : (violate a s).hstep = s.hstep := rfl
@[simp] theorem violate_pendId (a : HostAction) : (violate a s).pendId = s.pendId := rfl
@[simp] theorem violate_pendPlen (a : HostAction) : (violate a s).pendPlen = s.pendPlen := rfl
@[simp] theorem violate_pendAddr (a : HostAction) : (violate a s).pendAddr = s.pendAddr := rfl
@[simp] theorem violate_pendBefore (a : HostAction) : (violate a s).pendBefore = s.pendBefore := rfl
@[simp] theorem violate_violations (a : HostAction) : (violate a s).violations = s.violations ++ [a] := rfl
@[simp] theorem violate_script (a : HostAction) : (violate a s).script = s.script := rfl
@[simp] theorem violate_outbox (a : HostAction) : (violate a s).outbox = s.outbox := rfl
@[simp] theorem violate_readData (a : HostAction) : (violate a s).readData = s.readData := rfl
@[simp] theorem violate_freeCount (a : HostAction) : (violate a s).freeCount = s.freeCount := rfl

@[simp] theorem observe_cmd (v : Word) : (observe v s).cmd = s.cmd := rfl
@[simp] theorem observe_status (v : Word) : (observe v s).status = s.status := rfl
@[simp] theorem observe_arg (v : Word) : (observe v s).arg = s.arg := rfl
@[simp] theorem observe_dest (v : Word) : (observe v s).dest = s.dest := rfl
@[simp] theorem observe_id (v : Word) : (observe v s).id = s.id := rfl
@[simp] theorem observe_seq (v : Word) : (observe v s).seq = s.seq := rfl
@[simp] theorem observe_plen (v : Word) : (observe v s).plen = s.plen := rfl
@[simp] theorem observe_family (v : Word) : (observe v s).family = s.family := rfl
@[simp] theorem observe_csr (v : Word) : (observe v s).csr = s.csr := rfl
@[simp] theorem observe_off (v : Word) : (observe v s).off = s.off := rfl
@[simp] theorem observe_txlen (v : Word) : (observe v s).txlen = s.txlen := rfl
@[simp] theorem observe_rxlen (v : Word) : (observe v s).rxlen = s.rxlen := rfl
@[simp] theorem observe_rtype (v : Word) : (observe v s).rtype = s.rtype := rfl
@[simp] theorem observe_rcode (v : Word) : (observe v s).rcode = s.rcode := rfl
@[simp] theorem observe_rcsum (v : Word) : (observe v s).rcsum = s.rcsum := rfl
@[simp] theorem observe_rid (v : Word) : (observe v s).rid = s.rid := rfl
@[simp] theorem observe_rseq (v : Word) : (observe v s).rseq = s.rseq := rfl
@[simp] theorem observe_rdlen (v : Word) : (observe v s).rdlen = s.rdlen := rfl
@[simp] theorem observe_rtotlen (v : Word) : (observe v s).rtotlen = s.rtotlen := rfl
@[simp] theorem observe_rsrc (v : Word) : (observe v s).rsrc = s.rsrc := rfl
@[simp] theorem observe_txcnt (v : Word) : (observe v s).txcnt = s.txcnt := rfl
@[simp] theorem observe_saddr (v : Word) : (observe v s).saddr = s.saddr := rfl
@[simp] theorem observe_mem (v : Word) : (observe v s).mem = s.mem := rfl
@[simp] theorem observe_sock (v : Word) : (observe v s).sock = s.sock := rfl
@[simp] theorem observe_hstep (v : Word) : (observe v s).hstep = s.hstep := rfl
@[simp] theorem observe_pendId (v : Word) : (observe v s).pendId = s.pendId := rfl
@[simp] theorem observe_pendPlen (v : Word) : (observe v s).pendPlen = s.pendPlen := rfl
@[simp] theorem observe_pendAddr (v : Word) : (observe v s).pendAddr = s.pendAddr := rfl
@[simp] theorem observe_pendBefore (v : Word) : (observe v s).pendBefore = s.pendBefore := rfl
@[simp] theorem observe_violations (v : Word) : (observe v s).violations = s.violations := rfl
@[simp] theorem observe_script (v : Word) : (observe v s).script = s.script := rfl
@[simp] theorem observe_outbox (v : Word) : (observe v s).outbox = s.outbox := rfl
@[simp] theorem observe_readData (v : Word) : (observe v s).readData = s.readData ++ [v] := rfl
@[simp] theorem observe_freeCount (v : Word) : (observe v s).freeCount = s.freeCount := rfl

@[simp] theorem bufWrite_cmd (b : Buffer) (i : Nat) (bs : List Byte) : (bufWrite b i bs s).cmd = s.cmd := rfl
@[simp] theorem bufWrite_status (b : Buffer) (i : Nat) (bs : List Byte) : (bufWrite b i bs s).status = s.status := rfl
@[simp] theorem bufWrite_arg (b : Buffer) (i : Nat) (bs : List Byte) : (bufWrite b i bs s).arg = s.arg := rfl
@[simp] theorem bufWrite_dest (b : Buffer) (i : Nat) (bs : List Byte) : (bufWrite b i bs s).dest = s.dest := rfl
@[simp] theorem bufWrite_id (b : Buffer) (i : Nat) (bs : List Byte) : (bufWrite b i bs s).id = s.id := rfl
@[simp] theorem bufWrite_seq (b : Buffer) (i : Nat) (bs : List Byte) : (bufWrite b i bs s).seq = s.seq := rfl
@[simp] theorem bufWrite_plen (b : Buffer) (i : Nat) (bs : List Byte) : (bufWrite b i bs s).plen = s.plen := rfl
@[simp] theorem bufWrite_family (b : Buffer) (i : Nat) (bs : List Byte) : (bufWrite b i bs s).family = s.family := rfl
@[simp] theorem bufWrite_csr (b : Buffer) (i : Nat) (bs : List Byte) : (bufWrite b i bs s).csr = s.csr := rfl
@[simp] theorem bufWrite_off (b : Buffer) (i : Nat) (bs : List Byte) : (bufWrite b i bs s).off = s.off := rfl
@[simp] theorem bufWrite_txlen (b : Buffer) (i : Nat) (bs : List Byte) : (bufWrite b i bs s).txlen = s.txlen := rfl
@[simp] theorem bufWrite_rxlen (b : Buffer) (i : Nat) (bs : List Byte) : (bufWrite b i bs s).rxlen = s.rxlen := rfl
@[simp] theorem bufWrite_rtype (b : Buffer) (i : Nat) (bs : List Byte) : (bufWrite b i bs s).rtype = s.rtype := rfl
@[simp] theorem bufWrite_rcode (b : Buffer) (i : Nat) (bs : List Byte) : (bufWrite b i bs s).rcode = s.rcode := rfl
@[simp] theorem bufWrite_rcsum (b : Buffer) (i : Nat) (bs : List Byte) : (bufWrite b i bs s).rcsum = s.rcsum := rfl
@[simp] theorem bufWrite_rid (b : Buffer) (i : Nat) (bs : List Byte) : (bufWrite b i bs s).rid = s.rid := rfl
@[simp] theorem bufWrite_rseq (b : Buffer) (i : Nat) (bs : List Byte) : (bufWrite b i bs s).rseq = s.rseq := rfl
@[simp] theorem bufWrite_rdlen (b : Buffer) (i : Nat) (bs : List Byte) : (bufWrite b i bs s).rdlen = s.rdlen := rfl
@[simp] theorem bufWrite_rtotlen (b : Buffer) (i : Nat) (bs : List Byte) : (bufWrite b i bs s).rtotlen = s.rtotlen := rfl
@[simp] theorem bufWrite_rsrc (b : Buffer) (i : Nat) (bs : List Byte) : (bufWrite b i bs s).rsrc = s.rsrc := rfl
@[simp] theorem bufWrite_txcnt (b : Buffer) (i : Nat) (bs : List Byte) : (bufWrite b i bs s).txcnt = s.txcnt := rfl
@[simp] theorem bufWrite_saddr (b : Buffer) (i : Nat) (bs : List Byte) : (bufWrite b i bs s).saddr = s.saddr := rfl
@[simp] theorem bufWrite_mem (b : Buffer) (i : Nat) (bs : List Byte) : (bufWrite b i bs s).mem = s.mem.writeBytes (b.base + i) bs := rfl
@[simp] theorem bufWrite_sock (b : Buffer) (i : Nat) (bs : List Byte) : (bufWrite b i bs s).sock = s.sock := rfl
@[simp] theorem bufWrite_hstep (b : Buffer) (i : Nat) (bs : List Byte) : (bufWrite b i bs s).hstep = s.hstep := rfl
@[simp] theorem bufWrite_pendId (b : Buffer) (i : Nat) (bs : List Byte) : (bufWrite b i bs s).pendId = s.pendId := rfl
@[simp] theorem bufWrite_pendPlen (b : Buffer) (i : Nat) (bs : List Byte) : (bufWrite b i bs s).pendPlen = s.pendPlen := rfl
@[simp] theorem bufWrite_pendAddr (b : Buffer) (i : Nat) (bs : List Byte) : (bufWrite b i bs s).pendAddr = s.pendAddr := rfl
@[simp] theorem bufWrite_pendBefore (b : Buffer) (i : Nat) (bs : List Byte) : (bufWrite b i bs s).pendBefore = s.pendBefore := rfl
@[simp] theorem bufWrite_violations (b : Buffer) (i : Nat) (bs : List Byte) : (bufWrite b i bs s).violations = s.violations := rfl
@[simp] theorem bufWrite_script (b : Buffer) (i : Nat) (bs : List Byte) : (bufWrite b i bs s).script = s.script := rfl
@[simp] theorem bufWrite_outbox (b : Buffer) (i : Nat) (bs : List Byte) : (bufWrite b i bs s).outbox = s.outbox := rfl
@[simp] theorem bufWrite_readData (b : Buffer) (i : Nat) (bs : List Byte) : (bufWrite b i bs s).readData = s.readData := rfl
@[simp] theorem bufWrite_freeCount (b : Buffer) (i : Nat) (bs : List Byte) : (bufWrite b i bs s).freeCount = s.freeCount := rfl

@[simp] theorem hardReset_cmd : (hardReset s).cmd = State.reset.cmd := rfl
@[simp] theorem hardReset_status : (hardReset s).status = State.reset.status := rfl
@[simp] theorem hardReset_arg : (hardReset s).arg = State.reset.arg := rfl
@[simp] theorem hardReset_dest : (hardReset s).dest = State.reset.dest := rfl
@[simp] theorem hardReset_id : (hardReset s).id = State.reset.id := rfl
@[simp] theorem hardReset_seq : (hardReset s).seq = State.reset.seq := rfl
@[simp] theorem hardReset_plen : (hardReset s).plen = State.reset.plen := rfl
@[simp] theorem hardReset_family : (hardReset s).family = State.reset.family := rfl
@[simp] theorem hardReset_csr : (hardReset s).csr = State.reset.csr := rfl
@[simp] theorem hardReset_off : (hardReset s).off = State.reset.off := rfl
@[simp] theorem hardReset_txlen : (hardReset s).txlen = State.reset.txlen := rfl
@[simp] theorem hardReset_rxlen : (hardReset s).rxlen = State.reset.rxlen := rfl
@[simp] theorem hardReset_rtype : (hardReset s).rtype = State.reset.rtype := rfl
@[simp] theorem hardReset_rcode : (hardReset s).rcode = State.reset.rcode := rfl
@[simp] theorem hardReset_rcsum : (hardReset s).rcsum = State.reset.rcsum := rfl
@[simp] theorem hardReset_rid : (hardReset s).rid = State.reset.rid := rfl
@[simp] theorem hardReset_rseq : (hardReset s).rseq = State.reset.rseq := rfl
@[simp] theorem hardReset_rdlen : (hardReset s).rdlen = State.reset.rdlen := rfl
@[simp] theorem hardReset_rtotlen : (hardReset s).rtotlen = State.reset.rtotlen := rfl
@[simp] theorem hardReset_rsrc : (hardReset s).rsrc = State.reset.rsrc := rfl
@[simp] theorem hardReset_txcnt : (hardReset s).txcnt = State.reset.txcnt := rfl
@[simp] theorem hardReset_saddr : (hardReset s).saddr = State.reset.saddr := rfl
@[simp] theorem hardReset_mem : (hardReset s).mem = State.reset.mem := rfl
@[simp] theorem hardReset_sock : (hardReset s).sock = State.reset.sock := rfl
@[simp] theorem hardReset_hstep : (hardReset s).hstep = State.reset.hstep := rfl
@[simp] theorem hardReset_pendId : (hardReset s).pendId = State.reset.pendId := rfl
@[simp] theorem hardReset_pendPlen : (hardReset s).pendPlen = State.reset.pendPlen := rfl
@[simp] theorem hardReset_pendAddr : (hardReset s).pendAddr = State.reset.pendAddr := rfl
@[simp] theorem hardReset_pendBefore : (hardReset s).pendBefore = State.reset.pendBefore := rfl
@[simp] theorem hardReset_violations : (hardReset s).violations = s.violations := rfl
@[simp] theorem hardReset_script : (hardReset s).script = s.script := rfl
@[simp] theorem hardReset_outbox : (hardReset s).outbox = s.outbox := rfl
@[simp] theorem hardReset_readData : (hardReset s).readData = s.readData := rfl
@[simp] theorem hardReset_freeCount : (hardReset s).freeCount = s.freeCount := rfl

end StateFields

end Sys2Proof.Machine
end

