-- ==== Sys2Proof/Laws/Fields.lean ====
section
/-! SUPPORT. The fields that the shared operations of the codec and the session leave alone, or plainly set: one lemma per
field, all true by rfl. What they do to memory is Laws/Codec.lean and Laws/Session.lean. -/

namespace Sys2Proof.Machine

section

variable (s : State)

@[simp] theorem encodeInto_cmd (ty : Byte) (id sq : Half) : (encodeInto ty id sq s).cmd = s.cmd := rfl
@[simp] theorem encodeInto_status (ty : Byte) (id sq : Half) : (encodeInto ty id sq s).status = s.status := rfl
@[simp] theorem encodeInto_arg (ty : Byte) (id sq : Half) : (encodeInto ty id sq s).arg = s.arg := rfl
@[simp] theorem encodeInto_dest (ty : Byte) (id sq : Half) : (encodeInto ty id sq s).dest = s.dest := rfl
@[simp] theorem encodeInto_id (ty : Byte) (id sq : Half) : (encodeInto ty id sq s).id = s.id := rfl
@[simp] theorem encodeInto_seq (ty : Byte) (id sq : Half) : (encodeInto ty id sq s).seq = s.seq := rfl
@[simp] theorem encodeInto_plen (ty : Byte) (id sq : Half) : (encodeInto ty id sq s).plen = s.plen := rfl
@[simp] theorem encodeInto_family (ty : Byte) (id sq : Half) : (encodeInto ty id sq s).family = s.family := rfl
@[simp] theorem encodeInto_csr (ty : Byte) (id sq : Half) : (encodeInto ty id sq s).csr = s.csr := rfl
@[simp] theorem encodeInto_off (ty : Byte) (id sq : Half) : (encodeInto ty id sq s).off = s.off := rfl
@[simp] theorem encodeInto_rxlen (ty : Byte) (id sq : Half) : (encodeInto ty id sq s).rxlen = s.rxlen := rfl
@[simp] theorem encodeInto_rtype (ty : Byte) (id sq : Half) : (encodeInto ty id sq s).rtype = s.rtype := rfl
@[simp] theorem encodeInto_rcode (ty : Byte) (id sq : Half) : (encodeInto ty id sq s).rcode = s.rcode := rfl
@[simp] theorem encodeInto_rcsum (ty : Byte) (id sq : Half) : (encodeInto ty id sq s).rcsum = s.rcsum := rfl
@[simp] theorem encodeInto_rid (ty : Byte) (id sq : Half) : (encodeInto ty id sq s).rid = s.rid := rfl
@[simp] theorem encodeInto_rseq (ty : Byte) (id sq : Half) : (encodeInto ty id sq s).rseq = s.rseq := rfl
@[simp] theorem encodeInto_rdlen (ty : Byte) (id sq : Half) : (encodeInto ty id sq s).rdlen = s.rdlen := rfl
@[simp] theorem encodeInto_rtotlen (ty : Byte) (id sq : Half) : (encodeInto ty id sq s).rtotlen = s.rtotlen := rfl
@[simp] theorem encodeInto_rsrc (ty : Byte) (id sq : Half) : (encodeInto ty id sq s).rsrc = s.rsrc := rfl
@[simp] theorem encodeInto_txcnt (ty : Byte) (id sq : Half) : (encodeInto ty id sq s).txcnt = s.txcnt := rfl
@[simp] theorem encodeInto_saddr (ty : Byte) (id sq : Half) : (encodeInto ty id sq s).saddr = s.saddr := rfl
@[simp] theorem encodeInto_sock (ty : Byte) (id sq : Half) : (encodeInto ty id sq s).sock = s.sock := rfl
@[simp] theorem encodeInto_hstep (ty : Byte) (id sq : Half) : (encodeInto ty id sq s).hstep = s.hstep := rfl
@[simp] theorem encodeInto_pendId (ty : Byte) (id sq : Half) : (encodeInto ty id sq s).pendId = s.pendId := rfl
@[simp] theorem encodeInto_pendPlen (ty : Byte) (id sq : Half) : (encodeInto ty id sq s).pendPlen = s.pendPlen := rfl
@[simp] theorem encodeInto_pendAddr (ty : Byte) (id sq : Half) : (encodeInto ty id sq s).pendAddr = s.pendAddr := rfl
@[simp] theorem encodeInto_pendBefore (ty : Byte) (id sq : Half) : (encodeInto ty id sq s).pendBefore = s.pendBefore := rfl
@[simp] theorem encodeInto_violations (ty : Byte) (id sq : Half) : (encodeInto ty id sq s).violations = s.violations := rfl
@[simp] theorem encodeInto_script (ty : Byte) (id sq : Half) : (encodeInto ty id sq s).script = s.script := rfl
@[simp] theorem encodeInto_outbox (ty : Byte) (id sq : Half) : (encodeInto ty id sq s).outbox = s.outbox := rfl
@[simp] theorem encodeInto_readData (ty : Byte) (id sq : Half) : (encodeInto ty id sq s).readData = s.readData := rfl
@[simp] theorem encodeInto_freeCount (ty : Byte) (id sq : Half) : (encodeInto ty id sq s).freeCount = s.freeCount := rfl

@[simp] theorem patchChecksum_cmd : (patchChecksum s).cmd = s.cmd := rfl
@[simp] theorem patchChecksum_status : (patchChecksum s).status = s.status := rfl
@[simp] theorem patchChecksum_arg : (patchChecksum s).arg = s.arg := rfl
@[simp] theorem patchChecksum_dest : (patchChecksum s).dest = s.dest := rfl
@[simp] theorem patchChecksum_id : (patchChecksum s).id = s.id := rfl
@[simp] theorem patchChecksum_seq : (patchChecksum s).seq = s.seq := rfl
@[simp] theorem patchChecksum_plen : (patchChecksum s).plen = s.plen := rfl
@[simp] theorem patchChecksum_family : (patchChecksum s).family = s.family := rfl
@[simp] theorem patchChecksum_csr : (patchChecksum s).csr = s.csr := rfl
@[simp] theorem patchChecksum_off : (patchChecksum s).off = s.off := rfl
@[simp] theorem patchChecksum_txlen : (patchChecksum s).txlen = s.txlen := rfl
@[simp] theorem patchChecksum_rxlen : (patchChecksum s).rxlen = s.rxlen := rfl
@[simp] theorem patchChecksum_rtype : (patchChecksum s).rtype = s.rtype := rfl
@[simp] theorem patchChecksum_rcode : (patchChecksum s).rcode = s.rcode := rfl
@[simp] theorem patchChecksum_rcsum : (patchChecksum s).rcsum = s.rcsum := rfl
@[simp] theorem patchChecksum_rid : (patchChecksum s).rid = s.rid := rfl
@[simp] theorem patchChecksum_rseq : (patchChecksum s).rseq = s.rseq := rfl
@[simp] theorem patchChecksum_rdlen : (patchChecksum s).rdlen = s.rdlen := rfl
@[simp] theorem patchChecksum_rtotlen : (patchChecksum s).rtotlen = s.rtotlen := rfl
@[simp] theorem patchChecksum_rsrc : (patchChecksum s).rsrc = s.rsrc := rfl
@[simp] theorem patchChecksum_txcnt : (patchChecksum s).txcnt = s.txcnt := rfl
@[simp] theorem patchChecksum_saddr : (patchChecksum s).saddr = s.saddr := rfl
@[simp] theorem patchChecksum_mem : (patchChecksum s).mem = s.mem.writeBytes 0x20002 [hi8 s.csr, lo8 s.csr] := rfl
@[simp] theorem patchChecksum_sock : (patchChecksum s).sock = s.sock := rfl
@[simp] theorem patchChecksum_hstep : (patchChecksum s).hstep = s.hstep := rfl
@[simp] theorem patchChecksum_pendId : (patchChecksum s).pendId = s.pendId := rfl
@[simp] theorem patchChecksum_pendPlen : (patchChecksum s).pendPlen = s.pendPlen := rfl
@[simp] theorem patchChecksum_pendAddr : (patchChecksum s).pendAddr = s.pendAddr := rfl
@[simp] theorem patchChecksum_pendBefore : (patchChecksum s).pendBefore = s.pendBefore := rfl
@[simp] theorem patchChecksum_violations : (patchChecksum s).violations = s.violations := rfl
@[simp] theorem patchChecksum_script : (patchChecksum s).script = s.script := rfl
@[simp] theorem patchChecksum_outbox : (patchChecksum s).outbox = s.outbox := rfl
@[simp] theorem patchChecksum_readData : (patchChecksum s).readData = s.readData := rfl
@[simp] theorem patchChecksum_freeCount : (patchChecksum s).freeCount = s.freeCount := rfl

@[simp] theorem writeReply_cmd (m : List Byte) : (writeReply m s).cmd = s.cmd := rfl
@[simp] theorem writeReply_status (m : List Byte) : (writeReply m s).status = s.status := rfl
@[simp] theorem writeReply_arg (m : List Byte) : (writeReply m s).arg = s.arg := rfl
@[simp] theorem writeReply_dest (m : List Byte) : (writeReply m s).dest = s.dest := rfl
@[simp] theorem writeReply_id (m : List Byte) : (writeReply m s).id = s.id := rfl
@[simp] theorem writeReply_seq (m : List Byte) : (writeReply m s).seq = s.seq := rfl
@[simp] theorem writeReply_plen (m : List Byte) : (writeReply m s).plen = s.plen := rfl
@[simp] theorem writeReply_family (m : List Byte) : (writeReply m s).family = s.family := rfl
@[simp] theorem writeReply_csr (m : List Byte) : (writeReply m s).csr = s.csr := rfl
@[simp] theorem writeReply_off (m : List Byte) : (writeReply m s).off = s.off := rfl
@[simp] theorem writeReply_txlen (m : List Byte) : (writeReply m s).txlen = s.txlen := rfl
@[simp] theorem writeReply_rxlen (m : List Byte) : (writeReply m s).rxlen = s.rxlen := rfl
@[simp] theorem writeReply_rtype (m : List Byte) : (writeReply m s).rtype = m.getD 0 0 := rfl
@[simp] theorem writeReply_rcode (m : List Byte) : (writeReply m s).rcode = m.getD 1 0 := rfl
@[simp] theorem writeReply_rcsum (m : List Byte) : (writeReply m s).rcsum = be16 (m.getD 2 0) (m.getD 3 0) := rfl
@[simp] theorem writeReply_rid (m : List Byte) : (writeReply m s).rid = be16 (m.getD 4 0) (m.getD 5 0) := rfl
@[simp] theorem writeReply_rseq (m : List Byte) : (writeReply m s).rseq = be16 (m.getD 6 0) (m.getD 7 0) := rfl
@[simp] theorem writeReply_rtotlen (m : List Byte) : (writeReply m s).rtotlen = s.rtotlen := rfl
@[simp] theorem writeReply_rsrc (m : List Byte) : (writeReply m s).rsrc = s.rsrc := rfl
@[simp] theorem writeReply_txcnt (m : List Byte) : (writeReply m s).txcnt = s.txcnt := rfl
@[simp] theorem writeReply_saddr (m : List Byte) : (writeReply m s).saddr = s.saddr := rfl
@[simp] theorem writeReply_sock (m : List Byte) : (writeReply m s).sock = s.sock := rfl
@[simp] theorem writeReply_hstep (m : List Byte) : (writeReply m s).hstep = s.hstep := rfl
@[simp] theorem writeReply_pendId (m : List Byte) : (writeReply m s).pendId = s.pendId := rfl
@[simp] theorem writeReply_pendPlen (m : List Byte) : (writeReply m s).pendPlen = s.pendPlen := rfl
@[simp] theorem writeReply_pendAddr (m : List Byte) : (writeReply m s).pendAddr = s.pendAddr := rfl
@[simp] theorem writeReply_pendBefore (m : List Byte) : (writeReply m s).pendBefore = s.pendBefore := rfl
@[simp] theorem writeReply_violations (m : List Byte) : (writeReply m s).violations = s.violations := rfl
@[simp] theorem writeReply_script (m : List Byte) : (writeReply m s).script = s.script := rfl
@[simp] theorem writeReply_outbox (m : List Byte) : (writeReply m s).outbox = s.outbox := rfl
@[simp] theorem writeReply_readData (m : List Byte) : (writeReply m s).readData = s.readData := rfl
@[simp] theorem writeReply_freeCount (m : List Byte) : (writeReply m s).freeCount = s.freeCount := rfl

@[simp] theorem prepareRequest_cmd : (prepareRequest s).cmd = s.cmd := rfl
@[simp] theorem prepareRequest_status : (prepareRequest s).status = s.status := rfl
@[simp] theorem prepareRequest_arg : (prepareRequest s).arg = s.arg := rfl
@[simp] theorem prepareRequest_dest : (prepareRequest s).dest = s.dest := rfl
@[simp] theorem prepareRequest_id : (prepareRequest s).id = s.id := rfl
@[simp] theorem prepareRequest_seq : (prepareRequest s).seq = s.seq := rfl
@[simp] theorem prepareRequest_plen : (prepareRequest s).plen = s.plen := rfl
@[simp] theorem prepareRequest_family : (prepareRequest s).family = s.family := rfl
@[simp] theorem prepareRequest_off : (prepareRequest s).off = s.off := rfl
@[simp] theorem prepareRequest_rxlen : (prepareRequest s).rxlen = s.rxlen := rfl
@[simp] theorem prepareRequest_rtype : (prepareRequest s).rtype = s.rtype := rfl
@[simp] theorem prepareRequest_rcode : (prepareRequest s).rcode = s.rcode := rfl
@[simp] theorem prepareRequest_rcsum : (prepareRequest s).rcsum = s.rcsum := rfl
@[simp] theorem prepareRequest_rid : (prepareRequest s).rid = s.rid := rfl
@[simp] theorem prepareRequest_rseq : (prepareRequest s).rseq = s.rseq := rfl
@[simp] theorem prepareRequest_rdlen : (prepareRequest s).rdlen = s.rdlen := rfl
@[simp] theorem prepareRequest_rtotlen : (prepareRequest s).rtotlen = s.rtotlen := rfl
@[simp] theorem prepareRequest_rsrc : (prepareRequest s).rsrc = s.rsrc := rfl
@[simp] theorem prepareRequest_txcnt : (prepareRequest s).txcnt = s.txcnt := rfl
@[simp] theorem prepareRequest_saddr : (prepareRequest s).saddr = s.saddr := rfl
@[simp] theorem prepareRequest_sock : (prepareRequest s).sock = s.sock := rfl
@[simp] theorem prepareRequest_hstep : (prepareRequest s).hstep = s.hstep := rfl
@[simp] theorem prepareRequest_pendId : (prepareRequest s).pendId = s.pendId := rfl
@[simp] theorem prepareRequest_pendPlen : (prepareRequest s).pendPlen = s.pendPlen := rfl
@[simp] theorem prepareRequest_pendAddr : (prepareRequest s).pendAddr = s.pendAddr := rfl
@[simp] theorem prepareRequest_pendBefore : (prepareRequest s).pendBefore = s.pendBefore := rfl
@[simp] theorem prepareRequest_violations : (prepareRequest s).violations = s.violations := rfl
@[simp] theorem prepareRequest_script : (prepareRequest s).script = s.script := rfl
@[simp] theorem prepareRequest_outbox : (prepareRequest s).outbox = s.outbox := rfl
@[simp] theorem prepareRequest_readData : (prepareRequest s).readData = s.readData := rfl
@[simp] theorem prepareRequest_freeCount : (prepareRequest s).freeCount = s.freeCount := rfl

@[simp] theorem storeDatagram_cmd (d : List Byte) : (storeDatagram d s).cmd = s.cmd := rfl
@[simp] theorem storeDatagram_status (d : List Byte) : (storeDatagram d s).status = s.status := rfl
@[simp] theorem storeDatagram_arg (d : List Byte) : (storeDatagram d s).arg = s.arg := rfl
@[simp] theorem storeDatagram_dest (d : List Byte) : (storeDatagram d s).dest = s.dest := rfl
@[simp] theorem storeDatagram_id (d : List Byte) : (storeDatagram d s).id = s.id := rfl
@[simp] theorem storeDatagram_seq (d : List Byte) : (storeDatagram d s).seq = s.seq := rfl
@[simp] theorem storeDatagram_plen (d : List Byte) : (storeDatagram d s).plen = s.plen := rfl
@[simp] theorem storeDatagram_family (d : List Byte) : (storeDatagram d s).family = s.family := rfl
@[simp] theorem storeDatagram_csr (d : List Byte) : (storeDatagram d s).csr = s.csr := rfl
@[simp] theorem storeDatagram_off (d : List Byte) : (storeDatagram d s).off = s.off := rfl
@[simp] theorem storeDatagram_txlen (d : List Byte) : (storeDatagram d s).txlen = s.txlen := rfl
@[simp] theorem storeDatagram_rtype (d : List Byte) : (storeDatagram d s).rtype = s.rtype := rfl
@[simp] theorem storeDatagram_rcode (d : List Byte) : (storeDatagram d s).rcode = s.rcode := rfl
@[simp] theorem storeDatagram_rcsum (d : List Byte) : (storeDatagram d s).rcsum = s.rcsum := rfl
@[simp] theorem storeDatagram_rid (d : List Byte) : (storeDatagram d s).rid = s.rid := rfl
@[simp] theorem storeDatagram_rseq (d : List Byte) : (storeDatagram d s).rseq = s.rseq := rfl
@[simp] theorem storeDatagram_rdlen (d : List Byte) : (storeDatagram d s).rdlen = s.rdlen := rfl
@[simp] theorem storeDatagram_rtotlen (d : List Byte) : (storeDatagram d s).rtotlen = s.rtotlen := rfl
@[simp] theorem storeDatagram_rsrc (d : List Byte) : (storeDatagram d s).rsrc = s.rsrc := rfl
@[simp] theorem storeDatagram_txcnt (d : List Byte) : (storeDatagram d s).txcnt = s.txcnt := rfl
@[simp] theorem storeDatagram_saddr (d : List Byte) : (storeDatagram d s).saddr = s.saddr := rfl
@[simp] theorem storeDatagram_sock (d : List Byte) : (storeDatagram d s).sock = s.sock := rfl
@[simp] theorem storeDatagram_hstep (d : List Byte) : (storeDatagram d s).hstep = s.hstep := rfl
@[simp] theorem storeDatagram_pendId (d : List Byte) : (storeDatagram d s).pendId = s.pendId := rfl
@[simp] theorem storeDatagram_pendPlen (d : List Byte) : (storeDatagram d s).pendPlen = s.pendPlen := rfl
@[simp] theorem storeDatagram_pendAddr (d : List Byte) : (storeDatagram d s).pendAddr = s.pendAddr := rfl
@[simp] theorem storeDatagram_pendBefore (d : List Byte) : (storeDatagram d s).pendBefore = s.pendBefore := rfl
@[simp] theorem storeDatagram_violations (d : List Byte) : (storeDatagram d s).violations = s.violations := rfl
@[simp] theorem storeDatagram_script (d : List Byte) : (storeDatagram d s).script = s.script := rfl
@[simp] theorem storeDatagram_outbox (d : List Byte) : (storeDatagram d s).outbox = s.outbox := rfl
@[simp] theorem storeDatagram_readData (d : List Byte) : (storeDatagram d s).readData = s.readData := rfl
@[simp] theorem storeDatagram_freeCount (d : List Byte) : (storeDatagram d s).freeCount = s.freeCount := rfl

@[simp] theorem stripDatagram_cmd : (stripDatagram s).cmd = s.cmd := rfl
@[simp] theorem stripDatagram_status : (stripDatagram s).status = s.status := rfl
@[simp] theorem stripDatagram_arg : (stripDatagram s).arg = s.arg := rfl
@[simp] theorem stripDatagram_dest : (stripDatagram s).dest = s.dest := rfl
@[simp] theorem stripDatagram_id : (stripDatagram s).id = s.id := rfl
@[simp] theorem stripDatagram_seq : (stripDatagram s).seq = s.seq := rfl
@[simp] theorem stripDatagram_plen : (stripDatagram s).plen = s.plen := rfl
@[simp] theorem stripDatagram_family : (stripDatagram s).family = s.family := rfl
@[simp] theorem stripDatagram_csr : (stripDatagram s).csr = s.csr := rfl
@[simp] theorem stripDatagram_txlen : (stripDatagram s).txlen = s.txlen := rfl
@[simp] theorem stripDatagram_rxlen : (stripDatagram s).rxlen = s.rxlen := rfl
@[simp] theorem stripDatagram_rtype : (stripDatagram s).rtype = s.rtype := rfl
@[simp] theorem stripDatagram_rcode : (stripDatagram s).rcode = s.rcode := rfl
@[simp] theorem stripDatagram_rcsum : (stripDatagram s).rcsum = s.rcsum := rfl
@[simp] theorem stripDatagram_rid : (stripDatagram s).rid = s.rid := rfl
@[simp] theorem stripDatagram_rseq : (stripDatagram s).rseq = s.rseq := rfl
@[simp] theorem stripDatagram_rdlen : (stripDatagram s).rdlen = s.rdlen := rfl
@[simp] theorem stripDatagram_rtotlen : (stripDatagram s).rtotlen = s.rtotlen := rfl
@[simp] theorem stripDatagram_rsrc : (stripDatagram s).rsrc = s.rsrc := rfl
@[simp] theorem stripDatagram_txcnt : (stripDatagram s).txcnt = s.txcnt := rfl
@[simp] theorem stripDatagram_saddr : (stripDatagram s).saddr = s.saddr := rfl
@[simp] theorem stripDatagram_mem : (stripDatagram s).mem = s.mem := rfl
@[simp] theorem stripDatagram_sock : (stripDatagram s).sock = s.sock := rfl
@[simp] theorem stripDatagram_hstep : (stripDatagram s).hstep = s.hstep := rfl
@[simp] theorem stripDatagram_pendId : (stripDatagram s).pendId = s.pendId := rfl
@[simp] theorem stripDatagram_pendPlen : (stripDatagram s).pendPlen = s.pendPlen := rfl
@[simp] theorem stripDatagram_pendAddr : (stripDatagram s).pendAddr = s.pendAddr := rfl
@[simp] theorem stripDatagram_pendBefore : (stripDatagram s).pendBefore = s.pendBefore := rfl
@[simp] theorem stripDatagram_violations : (stripDatagram s).violations = s.violations := rfl
@[simp] theorem stripDatagram_script : (stripDatagram s).script = s.script := rfl
@[simp] theorem stripDatagram_outbox : (stripDatagram s).outbox = s.outbox := rfl
@[simp] theorem stripDatagram_readData : (stripDatagram s).readData = s.readData := rfl
@[simp] theorem stripDatagram_freeCount : (stripDatagram s).freeCount = s.freeCount := rfl

@[simp] theorem keepPending_cmd : (keepPending s).cmd = s.cmd := rfl
@[simp] theorem keepPending_status : (keepPending s).status = s.status := rfl
@[simp] theorem keepPending_arg : (keepPending s).arg = s.arg := rfl
@[simp] theorem keepPending_dest : (keepPending s).dest = s.dest := rfl
@[simp] theorem keepPending_id : (keepPending s).id = s.id := rfl
@[simp] theorem keepPending_seq : (keepPending s).seq = s.seq := rfl
@[simp] theorem keepPending_plen : (keepPending s).plen = s.plen := rfl
@[simp] theorem keepPending_family : (keepPending s).family = s.family := rfl
@[simp] theorem keepPending_csr : (keepPending s).csr = s.csr := rfl
@[simp] theorem keepPending_off : (keepPending s).off = s.off := rfl
@[simp] theorem keepPending_txlen : (keepPending s).txlen = s.txlen := rfl
@[simp] theorem keepPending_rxlen : (keepPending s).rxlen = s.rxlen := rfl
@[simp] theorem keepPending_rtype : (keepPending s).rtype = s.rtype := rfl
@[simp] theorem keepPending_rcode : (keepPending s).rcode = s.rcode := rfl
@[simp] theorem keepPending_rcsum : (keepPending s).rcsum = s.rcsum := rfl
@[simp] theorem keepPending_rid : (keepPending s).rid = s.rid := rfl
@[simp] theorem keepPending_rseq : (keepPending s).rseq = s.rseq := rfl
@[simp] theorem keepPending_rdlen : (keepPending s).rdlen = s.rdlen := rfl
@[simp] theorem keepPending_rtotlen : (keepPending s).rtotlen = s.rtotlen := rfl
@[simp] theorem keepPending_rsrc : (keepPending s).rsrc = s.rsrc := rfl
@[simp] theorem keepPending_txcnt : (keepPending s).txcnt = s.txcnt := rfl
@[simp] theorem keepPending_saddr : (keepPending s).saddr = s.saddr := rfl
@[simp] theorem keepPending_mem : (keepPending s).mem = s.mem := rfl
@[simp] theorem keepPending_sock : (keepPending s).sock = s.sock := rfl
@[simp] theorem keepPending_hstep : (keepPending s).hstep = s.hstep := rfl
@[simp] theorem keepPending_pendId : (keepPending s).pendId = s.pendId := rfl
@[simp] theorem keepPending_pendPlen : (keepPending s).pendPlen = s.pendPlen := rfl
@[simp] theorem keepPending_pendAddr : (keepPending s).pendAddr = s.pendAddr := rfl
@[simp] theorem keepPending_pendBefore : (keepPending s).pendBefore = some (pending s) := rfl
@[simp] theorem keepPending_violations : (keepPending s).violations = s.violations := rfl
@[simp] theorem keepPending_script : (keepPending s).script = s.script := rfl
@[simp] theorem keepPending_outbox : (keepPending s).outbox = s.outbox := rfl
@[simp] theorem keepPending_readData : (keepPending s).readData = s.readData := rfl
@[simp] theorem keepPending_freeCount : (keepPending s).freeCount = s.freeCount := rfl

@[simp] theorem restorePending_cmd : (restorePending s).cmd = s.cmd := rfl
@[simp] theorem restorePending_status : (restorePending s).status = s.status := rfl
@[simp] theorem restorePending_arg : (restorePending s).arg = s.arg := rfl
@[simp] theorem restorePending_dest : (restorePending s).dest = s.dest := rfl
@[simp] theorem restorePending_id : (restorePending s).id = s.id := rfl
@[simp] theorem restorePending_seq : (restorePending s).seq = s.seq := rfl
@[simp] theorem restorePending_plen : (restorePending s).plen = s.plen := rfl
@[simp] theorem restorePending_family : (restorePending s).family = s.family := rfl
@[simp] theorem restorePending_csr : (restorePending s).csr = s.csr := rfl
@[simp] theorem restorePending_off : (restorePending s).off = s.off := rfl
@[simp] theorem restorePending_txlen : (restorePending s).txlen = s.txlen := rfl
@[simp] theorem restorePending_rxlen : (restorePending s).rxlen = s.rxlen := rfl
@[simp] theorem restorePending_rtype : (restorePending s).rtype = s.rtype := rfl
@[simp] theorem restorePending_rcode : (restorePending s).rcode = s.rcode := rfl
@[simp] theorem restorePending_rcsum : (restorePending s).rcsum = s.rcsum := rfl
@[simp] theorem restorePending_rid : (restorePending s).rid = s.rid := rfl
@[simp] theorem restorePending_rseq : (restorePending s).rseq = s.rseq := rfl
@[simp] theorem restorePending_rdlen : (restorePending s).rdlen = s.rdlen := rfl
@[simp] theorem restorePending_rtotlen : (restorePending s).rtotlen = s.rtotlen := rfl
@[simp] theorem restorePending_rsrc : (restorePending s).rsrc = s.rsrc := rfl
@[simp] theorem restorePending_txcnt : (restorePending s).txcnt = s.txcnt := rfl
@[simp] theorem restorePending_saddr : (restorePending s).saddr = s.saddr := rfl
@[simp] theorem restorePending_mem : (restorePending s).mem = s.mem := rfl
@[simp] theorem restorePending_sock : (restorePending s).sock = s.sock := rfl
@[simp] theorem restorePending_hstep : (restorePending s).hstep = s.hstep := rfl
@[simp] theorem restorePending_pendId : (restorePending s).pendId = (s.pendBefore.getD (pending s)).id := rfl
@[simp] theorem restorePending_pendPlen : (restorePending s).pendPlen = (s.pendBefore.getD (pending s)).plen := rfl
@[simp] theorem restorePending_pendAddr : (restorePending s).pendAddr = (s.pendBefore.getD (pending s)).addr := rfl
@[simp] theorem restorePending_pendBefore : (restorePending s).pendBefore = none := rfl
@[simp] theorem restorePending_violations : (restorePending s).violations = s.violations := rfl
@[simp] theorem restorePending_script : (restorePending s).script = s.script := rfl
@[simp] theorem restorePending_outbox : (restorePending s).outbox = s.outbox := rfl
@[simp] theorem restorePending_readData : (restorePending s).readData = s.readData := rfl
@[simp] theorem restorePending_freeCount : (restorePending s).freeCount = s.freeCount := rfl

@[simp] theorem freeOffset_cmd : (freeOffset s).cmd = s.cmd := rfl
@[simp] theorem freeOffset_status : (freeOffset s).status = s.status := rfl
@[simp] theorem freeOffset_arg : (freeOffset s).arg = s.arg := rfl
@[simp] theorem freeOffset_dest : (freeOffset s).dest = s.dest := rfl
@[simp] theorem freeOffset_id : (freeOffset s).id = s.id := rfl
@[simp] theorem freeOffset_seq : (freeOffset s).seq = s.seq := rfl
@[simp] theorem freeOffset_plen : (freeOffset s).plen = s.plen := rfl
@[simp] theorem freeOffset_family : (freeOffset s).family = s.family := rfl
@[simp] theorem freeOffset_csr : (freeOffset s).csr = s.csr := rfl
@[simp] theorem freeOffset_off : (freeOffset s).off = Config.emptyDatagramOff s.freeCount s.off (bufByte .rxbuf 0 s) :=
  rfl
@[simp] theorem freeOffset_txlen : (freeOffset s).txlen = s.txlen := rfl
@[simp] theorem freeOffset_rxlen : (freeOffset s).rxlen = s.rxlen := rfl
@[simp] theorem freeOffset_rtype : (freeOffset s).rtype = s.rtype := rfl
@[simp] theorem freeOffset_rcode : (freeOffset s).rcode = s.rcode := rfl
@[simp] theorem freeOffset_rcsum : (freeOffset s).rcsum = s.rcsum := rfl
@[simp] theorem freeOffset_rid : (freeOffset s).rid = s.rid := rfl
@[simp] theorem freeOffset_rseq : (freeOffset s).rseq = s.rseq := rfl
@[simp] theorem freeOffset_rdlen : (freeOffset s).rdlen = s.rdlen := rfl
@[simp] theorem freeOffset_rtotlen : (freeOffset s).rtotlen = s.rtotlen := rfl
@[simp] theorem freeOffset_rsrc : (freeOffset s).rsrc = s.rsrc := rfl
@[simp] theorem freeOffset_txcnt : (freeOffset s).txcnt = s.txcnt := rfl
@[simp] theorem freeOffset_saddr : (freeOffset s).saddr = s.saddr := rfl
@[simp] theorem freeOffset_mem : (freeOffset s).mem = s.mem := rfl
@[simp] theorem freeOffset_sock : (freeOffset s).sock = s.sock := rfl
@[simp] theorem freeOffset_hstep : (freeOffset s).hstep = s.hstep := rfl
@[simp] theorem freeOffset_pendId : (freeOffset s).pendId = s.pendId := rfl
@[simp] theorem freeOffset_pendPlen : (freeOffset s).pendPlen = s.pendPlen := rfl
@[simp] theorem freeOffset_pendAddr : (freeOffset s).pendAddr = s.pendAddr := rfl
@[simp] theorem freeOffset_pendBefore : (freeOffset s).pendBefore = s.pendBefore := rfl
@[simp] theorem freeOffset_violations : (freeOffset s).violations = s.violations := rfl
@[simp] theorem freeOffset_script : (freeOffset s).script = s.script := rfl
@[simp] theorem freeOffset_outbox : (freeOffset s).outbox = s.outbox := rfl
@[simp] theorem freeOffset_readData : (freeOffset s).readData = s.readData := rfl
@[simp] theorem freeOffset_freeCount : (freeOffset s).freeCount = s.freeCount + 1 := rfl

end

end Sys2Proof.Machine
end

