-- ==== Sys2Proof/Laws/Memory.lean ====
section
/-! SUPPORT. Memory: what a read after a write gives, that every memory operation keeps the canonical form, and that
canonical memories that read the same are the same. -/

namespace Sys2Proof.Machine

/-! ### One byte -/

theorem Memory.read_insert_same (m : Memory) (a : Nat) (v : Byte) (h : ∀ c ∈ m, c.1 ≠ a) :
    (Memory.insert a v m).read a = v := by
  induction m with
  | nil => simp [Memory.insert, Memory.read]
  | cons c m ih =>
    have hc : c.1 ≠ a := h c (by simp)
    unfold Memory.insert
    split
    · simp [Memory.read]
    · simp [Memory.read, hc, ih fun d hd => h d (by simp [hd])]

theorem Memory.read_insert_other (m : Memory) {a b : Nat} (v : Byte) (h : a ≠ b) :
    (Memory.insert a v m).read b = m.read b := by
  induction m with
  | nil => simp [Memory.insert, Memory.read, h]
  | cons c m ih =>
    unfold Memory.insert
    split
    · simp [Memory.read, h]
    · simp [Memory.read, ih]

theorem Memory.mem_erase {m : Memory} {a : Nat} {c : Host.Cell} :
    c ∈ m.erase a ↔ c ∈ m ∧ c.1 ≠ a := by
  simp [Memory.erase]

theorem Memory.read_erase_same (m : Memory) (a : Nat) : (m.erase a).read a = 0 := by
  induction m with
  | nil => rfl
  | cons c m ih =>
    by_cases h : c.1 = a
    · simpa [Memory.erase, h] using ih
    · simp only [Memory.erase] at ih
      simp [Memory.erase, Memory.read, h, ih]

theorem Memory.read_erase_other (m : Memory) {a b : Nat} (h : a ≠ b) :
    (m.erase a).read b = m.read b := by
  induction m with
  | nil => rfl
  | cons c m ih =>
    simp only [Memory.erase] at ih
    by_cases h' : c.1 = a
    · have : c.1 ≠ b := fun hb => h (h' ▸ hb)
      simp [Memory.erase, Memory.read, h', ih, h]
    · simp [Memory.erase, Memory.read, h', ih]

/-- A read after a write to the same address gives the byte written. -/
@[simp] theorem Memory.read_write_same (m : Memory) (a : Nat) (v : Byte) :
    (m.write a v).read a = v := by
  unfold Memory.write
  split
  · simp [Memory.read_erase_same, *]
  · exact Memory.read_insert_same _ _ _ fun c hc => (Memory.mem_erase.1 hc).2

/-- A write leaves every other address alone. -/
theorem Memory.read_write_other (m : Memory) {a b : Nat} (v : Byte) (h : a ≠ b) :
    (m.write a v).read b = m.read b := by
  unfold Memory.write
  split
  · exact Memory.read_erase_other m h
  · rw [Memory.read_insert_other _ v h, Memory.read_erase_other m h]

/-! ### Byte sequences -/

/-- What a read after a sequence was written gives: the byte of the sequence inside it, the old byte outside. -/
theorem Memory.read_writeBytes (bs : List Byte) (m : Memory) (a b : Nat) :
    (m.writeBytes a bs).read b =
      if a ≤ b ∧ b < a + bs.length then bs.getD (b - a) 0 else m.read b := by
  induction bs generalizing m a with
  | nil =>
    have h : ¬ (a ≤ b ∧ b < a + ([] : List Byte).length) := by simp
    rw [if_neg h]
    rfl
  | cons v bs ih =>
    rw [Memory.writeBytes, ih]
    by_cases h : a = b
    · subst h
      simp
    · rw [Memory.read_write_other m v h]
      by_cases h1 : a + 1 ≤ b ∧ b < a + 1 + bs.length
      · have h2 : a ≤ b ∧ b < a + (v :: bs).length := by simp; omega
        obtain ⟨k, hk⟩ : ∃ k, b - a = k + 1 := ⟨b - a - 1, by omega⟩
        have hk' : b - (a + 1) = k := by omega
        rw [if_pos h1, if_pos h2, hk, hk', List.getD_cons_succ]
      · have h2 : ¬ (a ≤ b ∧ b < a + (v :: bs).length) := by simp; omega
        simp only [h1, h2, if_false]

@[simp] theorem Memory.length_readBytes (m : Memory) (a n : Nat) :
    (m.readBytes a n).length = n := by
  induction n generalizing a with
  | zero => rfl
  | succ n ih => simp [Memory.readBytes, ih]

/-- A sequence read is the bytes read one by one. -/
theorem Memory.readBytes_eq_map (m : Memory) (a n : Nat) :
    m.readBytes a n = (List.range n).map fun k => m.read (a + k) := by
  induction n generalizing a with
  | zero => rfl
  | succ n ih =>
    simp only [Memory.readBytes, ih, List.range_succ_eq_map, List.map_cons, List.map_map,
      Nat.add_zero, List.cons.injEq, true_and]
    congr 1
    funext k
    simp [Function.comp, Nat.add_assoc, Nat.add_comm 1 k]

theorem Memory.getD_readBytes (m : Memory) (a : Nat) {n k : Nat} (h : k < n) :
    (m.readBytes a n).getD k 0 = m.read (a + k) := by
  rw [Memory.readBytes_eq_map]
  simp [List.getD_eq_getElem?_getD, h]

/-- Reading where nothing was written. -/
theorem Memory.readBytes_congr {m m' : Memory} {a n : Nat}
    (h : ∀ k, k < n → m.read (a + k) = m'.read (a + k)) :
    m.readBytes a n = m'.readBytes a n := by
  rw [Memory.readBytes_eq_map, Memory.readBytes_eq_map]
  exact List.map_congr_left fun k hk => h k (List.mem_range.1 hk)

/-- Reading back what was written. -/
theorem Memory.readBytes_writeBytes_same (m : Memory) (a : Nat) (bs : List Byte) :
    (m.writeBytes a bs).readBytes a bs.length = bs := by
  rw [Memory.readBytes_eq_map]
  apply List.ext_getElem (by simp)
  intro k h1 h2
  simp [Memory.read_writeBytes, h2, List.getD_eq_getElem?_getD]

/-- A sequence written elsewhere does not show. -/
theorem Memory.readBytes_writeBytes_other (m : Memory) {a b n : Nat} (bs : List Byte)
    (h : b + n ≤ a ∨ a + bs.length ≤ b) :
    (m.writeBytes a bs).readBytes b n = m.readBytes b n := by
  apply Memory.readBytes_congr
  intro k hk
  rw [Memory.read_writeBytes, if_neg (by omega)]

/-! ### The canonical form -/

theorem Memory.mem_insert {m : Memory} {a : Nat} {v : Byte} {c : Host.Cell} :
    c ∈ Memory.insert a v m ↔ c = (a, v) ∨ c ∈ m := by
  induction m with
  | nil => simp [Memory.insert]
  | cons d m ih =>
    unfold Memory.insert
    split
    · simp
    · simp [ih]
      tauto

theorem Memory.wf_erase {m : Memory} (h : m.wf) (a : Nat) : (m.erase a).wf :=
  ⟨h.1.filter _, fun c hc => h.2 c (Memory.mem_erase.1 hc).1⟩

theorem Memory.wf_insert {m : Memory} (h : m.wf) {a : Nat} {v : Byte} (hv : v ≠ 0)
    (ha : ∀ c ∈ m, c.1 ≠ a) : (Memory.insert a v m).wf := by
  refine ⟨?_, ?_⟩
  · obtain ⟨hp, -⟩ := h
    induction m with
    | nil => simp [Memory.insert]
    | cons d m ih =>
      rw [List.pairwise_cons] at hp
      have hd : d.1 ≠ a := ha d (by simp)
      unfold Memory.insert
      split
      · rename_i hlt
        rw [List.pairwise_cons, List.pairwise_cons]
        refine ⟨fun c hc => ?_, hp.1, hp.2⟩
        rcases List.mem_cons.1 hc with rfl | hc
        · exact hlt
        · exact Nat.lt_trans hlt (hp.1 c hc)
      · rw [List.pairwise_cons]
        refine ⟨fun c hc => ?_, ih (fun c hc => ha c (by simp [hc])) hp.2⟩
        rcases Memory.mem_insert.1 hc with rfl | hc
        · show d.1 < a
          omega
        · exact hp.1 c hc
  · intro c hc
    rcases Memory.mem_insert.1 hc with rfl | hc
    · exact hv
    · exact h.2 c hc

/-- A write keeps the canonical form. -/
theorem Memory.wf_write {m : Memory} (h : m.wf) (a : Nat) (v : Byte) : (m.write a v).wf := by
  unfold Memory.write
  split
  · exact Memory.wf_erase h a
  · rename_i hv
    exact Memory.wf_insert (Memory.wf_erase h a) hv fun c hc => (Memory.mem_erase.1 hc).2

/-- Writing a sequence keeps the canonical form. -/
theorem Memory.wf_writeBytes {m : Memory} (h : m.wf) (a : Nat) (bs : List Byte) :
    (m.writeBytes a bs).wf := by
  induction bs generalizing m a with
  | nil => exact h
  | cons b bs ih => exact ih (Memory.wf_write h a b) (a + 1)

/-- A cell after a write is the one written, or was there before. -/
theorem Memory.mem_write {m : Memory} {a : Nat} {v : Byte} {c : Host.Cell}
    (h : c ∈ m.write a v) : c.1 = a ∨ c ∈ m := by
  unfold Memory.write at h
  split at h
  · exact .inr (Memory.mem_erase.1 h).1
  · rcases Memory.mem_insert.1 h with rfl | h
    · exact .inl rfl
    · exact .inr (Memory.mem_erase.1 h).1

/-- A cell after a sequence was written lies in it, or was there before. -/
theorem Memory.mem_writeBytes {bs : List Byte} {m : Memory} {a : Nat} {c : Host.Cell}
    (h : c ∈ m.writeBytes a bs) : (a ≤ c.1 ∧ c.1 < a + bs.length) ∨ c ∈ m := by
  induction bs generalizing m a with
  | nil => exact .inr h
  | cons b bs ih =>
    rcases ih h with h | h
    · exact .inl ⟨by omega, by simp; omega⟩
    · rcases Memory.mem_write h with h | h
      · exact .inl ⟨by omega, by simp; omega⟩
      · exact .inr h

theorem Memory.read_of_lt {m : Memory} {a : Nat} (h : ∀ c ∈ m, a < c.1) : m.read a = 0 := by
  induction m with
  | nil => rfl
  | cons c m ih =>
    have hc : a < c.1 := h c (by simp)
    have hne : c.1 ≠ a := by omega
    simp [Memory.read, hne, ih fun d hd => h d (by simp [hd])]

/-- Canonical memories that read the same everywhere are equal data. -/
theorem Memory.ext_of_wf {m m' : Memory} (h : m.wf) (h' : m'.wf)
    (hr : ∀ a, m.read a = m'.read a) : m = m' := by
  induction m generalizing m' with
  | nil =>
    cases m' with
    | nil => rfl
    | cons d m' =>
      have := hr d.1
      simp [Memory.read] at this
      exact absurd this.symm (h'.2 d (by simp))
  | cons c m ih =>
    cases m' with
    | nil =>
      have := hr c.1
      simp [Memory.read] at this
      exact absurd this (h.2 c (by simp))
    | cons d m' =>
      have hp := List.pairwise_cons.1 h.1
      have hp' := List.pairwise_cons.1 h'.1
      have hcd : c.1 = d.1 := by
        rcases Nat.lt_trichotomy c.1 d.1 with hlt | heq | hgt
        · have h1 := hr c.1
          rw [Memory.read_of_lt (m := d :: m')
            (by intro e he; rcases List.mem_cons.1 he with rfl | he
                · exact hlt
                · exact Nat.lt_trans hlt (hp'.1 e he))] at h1
          simp [Memory.read] at h1
          exact absurd h1 (h.2 c (by simp))
        · exact heq
        · have h1 := hr d.1
          rw [Memory.read_of_lt (m := c :: m)
            (by intro e he; rcases List.mem_cons.1 he with rfl | he
                · exact hgt
                · exact Nat.lt_trans hgt (hp.1 e he))] at h1
          simp [Memory.read] at h1
          exact absurd h1.symm (h'.2 d (by simp))
      have hv : c.2 = d.2 := by
        have h1 := hr c.1
        simpa [Memory.read, hcd] using h1
      have hm : m = m' := by
        apply ih ⟨hp.2, fun e he => h.2 e (by simp [he])⟩ ⟨hp'.2, fun e he => h'.2 e (by simp [he])⟩
        intro a
        by_cases ha : c.1 = a
        · rw [Memory.read_of_lt (m := m) (by intro e he; have := hp.1 e he; omega),
            Memory.read_of_lt (m := m') (by intro e he; have := hp'.1 e he; omega)]
        · have h1 := hr a
          have ha' : d.1 ≠ a := by omega
          simpa [Memory.read, ha, ha'] using h1
      rw [hm, Prod.ext hcd hv]

/-! ### Buffers -/

/-- A byte of a run of zeros, inside it or past its end. -/
theorem getD_replicate_zero (n k : Nat) : (List.replicate n (0 : Byte)).getD k 0 = 0 := by
  rw [List.getD_eq_getElem?_getD, List.getElem?_replicate]
  split_ifs <;> rfl

/-- A byte of a buffer after a sequence was written into that buffer. -/
theorem bufByte_bufWrite_same (b : Buffer) (i k : Nat) (bs : List Byte) (s : State) :
    bufByte b k (bufWrite b i bs s) =
      if i ≤ k ∧ k < i + bs.length then bs.getD (k - i) 0 else bufByte b k s := by
  simp only [bufByte, bufWrite, Memory.read_writeBytes]
  have h1 : (b.base + i ≤ b.base + k ∧ b.base + k < b.base + i + bs.length) ↔
      (i ≤ k ∧ k < i + bs.length) := by omega
  have h2 : b.base + k - (b.base + i) = k - i := by omega
  rw [h2]
  by_cases h : i ≤ k ∧ k < i + bs.length
  · rw [if_pos h, if_pos (h1.2 h)]
  · rw [if_neg h, if_neg (fun hh => h (h1.1 hh))]

theorem length_bufBytes (b : Buffer) (i n : Nat) (s : State) : (bufBytes b i n s).length = n :=
  Memory.length_readBytes _ _ _

theorem length_payload (s : State) : (payload s).length = s.plen.toNat := length_bufBytes _ _ _ _

theorem length_txView (s : State) : (txView s).length = s.txlen.toNat := length_bufBytes _ _ _ _

theorem length_rxView (s : State) : (rxView s).length = s.rxlen.toNat - s.off.toNat :=
  length_bufBytes _ _ _ _

end Sys2Proof.Machine
end

