-- ==== Sys2Proof/Laws/Codec.lean ====
section
/-! SUPPORT. What the codec's shared operations do: the views, EncodeInto, the checksum patch and DecodeFrom. -/

namespace Sys2Proof.Machine

/-! ### Views -/

theorem bufBytes_eq_slice (b : Buffer) (i n : Nat) (s : State) :
    bufBytes b i n s = bufferSlice b i n s := by
  rw [bufBytes, Memory.readBytes_eq_map, bufferSlice]
  simp only [Nat.add_assoc]

theorem viewBytes_eq_slice (v : View) (s : State) : viewBytes v s = viewSlice v s := by
  cases v
  · exact bufBytes_eq_slice _ _ _ _
  · exact bufBytes_eq_slice _ _ _ _

@[simp] theorem length_bufferSlice (b : Buffer) (i n : Nat) (s : State) :
    (bufferSlice b i n s).length = n := by
  simp [bufferSlice]

theorem getD_bufferSlice (b : Buffer) (i : Nat) {n k : Nat} (s : State) (h : k < n) :
    (bufferSlice b i n s).getD k 0 = s.mem.read (b.base + (i + k)) := by
  simp [bufferSlice, List.getD_eq_getElem?_getD, h]

theorem getD_payload {s : State} {k : Nat} (h : k < s.plen.toNat) :
    (payload s).getD k 0 = s.mem.read (0x10000 + k) := by
  rw [payload, bufBytes_eq_slice, getD_bufferSlice _ _ _ h, Nat.zero_add]
  rfl

/-! ### EncodeInto (R100) -/

/-- EncodeInto changes only TXBUF and TXLEN. -/
theorem encodeInto_eq (ty : Byte) (id sq : Half) (s : State) :
    encodeInto ty id sq s = { s with
      mem := s.mem.writeBytes 0x20000 (echoHeader ty id sq ++ payload s)
      txlen := BitVec.ofNat 16 (8 + s.plen.toNat) } := rfl

theorem length_message (ty : Byte) (id sq : Half) (s : State) :
    (echoHeader ty id sq ++ payload s).length = 8 + s.plen.toNat := by
  rw [List.length_append, length_payload]
  rfl

/-- What memory holds after EncodeInto. -/
theorem read_encodeInto (ty : Byte) (id sq : Half) (s : State) (a : Nat) :
    (encodeInto ty id sq s).mem.read a =
      if 0x20000 ≤ a ∧ a < 0x20008 + s.plen.toNat then
        (echoHeader ty id sq ++ payload s).getD (a - 0x20000) 0
      else s.mem.read a := by
  rw [encodeInto_eq]
  show Memory.read (Memory.writeBytes _ _ _) a = _
  rw [Memory.read_writeBytes, length_message]
  have h : (0x20000 ≤ a ∧ a < 0x20000 + (8 + s.plen.toNat)) ↔
      (0x20000 ≤ a ∧ a < 0x20008 + s.plen.toNat) := by omega
  simp only [h]

theorem txlen_encodeInto (ty : Byte) (id sq : Half) {s : State}
    (h : s.plen.toNat ≤ Config.maxPlen) :
    (encodeInto ty id sq s).txlen.toNat = 8 + s.plen.toNat := by
  have := Config.maxPlen_bounds
  rw [encodeInto_eq]
  show (BitVec.ofNat 16 (8 + s.plen.toNat)).toNat = _
  rw [BitVec.toNat_ofNat]
  omega

/-- After EncodeInto, TXV is the message. -/
theorem txView_encodeInto (ty : Byte) (id sq : Half) {s : State}
    (h : s.plen.toNat ≤ Config.maxPlen) :
    txView (encodeInto ty id sq s) = echoHeader ty id sq ++ payload s := by
  rw [txView, txlen_encodeInto ty id sq h, ← length_message ty id sq s, encodeInto_eq]
  exact Memory.readBytes_writeBytes_same _ _ _

theorem getD_message_header (ty : Byte) (id sq : Half) (s : State) {k : Nat} (h : k < 8) :
    (echoHeader ty id sq ++ payload s).getD k 0 = (echoHeader ty id sq).getD k 0 := by
  have : k < (echoHeader ty id sq).length := h
  simp only [List.getD_eq_getElem?_getD, List.getElem?_append_left this]

theorem getD_message_payload (ty : Byte) (id sq : Half) {s : State} {k : Nat}
    (h : k < s.plen.toNat) :
    (echoHeader ty id sq ++ payload s).getD (8 + k) 0 = s.mem.read (0x10000 + k) := by
  rw [← getD_payload h]
  have h8 : (echoHeader ty id sq).length = 8 := rfl
  simp only [List.getD_eq_getElem?_getD]
  rw [List.getElem?_append_right (by omega), h8, Nat.add_sub_cancel_left]

/-! ### The patch (R103) -/

/-- The patch changes only TXBUF. -/
theorem patchChecksum_eq (s : State) :
    patchChecksum s = { s with mem := s.mem.writeBytes 0x20002 [hi8 s.csr, lo8 s.csr] } := rfl

/-- What memory holds after the patch. -/
theorem read_patchChecksum (s : State) (a : Nat) :
    (patchChecksum s).mem.read a =
      if a = 0x20002 then hi8 s.csr else if a = 0x20003 then lo8 s.csr else s.mem.read a := by
  rw [patchChecksum_eq]
  show Memory.read (Memory.writeBytes _ _ _) a = _
  rw [Memory.read_writeBytes]
  by_cases h2 : a = 0x20002
  · subst h2
    rfl
  · by_cases h3 : a = 0x20003
    · subst h3
      rfl
    · have : ¬ (0x20002 ≤ a ∧ a < 0x20002 + [hi8 s.csr, lo8 s.csr].length) := by
        simp only [List.length_cons, List.length_nil]
        omega
      rw [if_neg this, if_neg h2, if_neg h3]

/-! ### DecodeFrom (R104) -/

/-- DecodeFrom fails exactly below 8 bytes. -/
theorem decodeFrom_of_short {m : List Byte} (h : m.length < 8) (s : State) : decodeFrom m s = none :=
  if_pos h

/-- With at least 8 bytes DecodeFrom writes the reply. -/
theorem decodeFrom_of_whole {m : List Byte} (h : 8 ≤ m.length) (s : State) :
    decodeFrom m s = some (writeReply m s) :=
  if_neg (Nat.not_lt.2 h)

/-- What memory holds after the data of a message is copied to RDATA. -/
theorem read_data (m : List Byte) (mem : Memory) (a : Nat) :
    (mem.writeBytes 0x40000 (m.drop 8)).read a =
      if 0x40000 ≤ a ∧ a < 0x40000 + (m.length - 8) then m.getD (8 + (a - 0x40000)) 0
      else mem.read a := by
  rw [Memory.read_writeBytes, List.length_drop]
  by_cases h : 0x40000 ≤ a ∧ a < 0x40000 + (m.length - 8)
  · rw [if_pos h, if_pos h]
    simp [List.getD_eq_getElem?_getD, List.getElem?_drop]
  · rw [if_neg h, if_neg h]

/-- What memory holds after the reply is written. -/
theorem read_writeReply (m : List Byte) (s : State) (a : Nat) :
    (writeReply m s).mem.read a =
      if 0x40000 ≤ a ∧ a < 0x40000 + (m.length - 8) then m.getD (8 + (a - 0x40000)) 0
      else s.mem.read a :=
  read_data m s.mem a

theorem rdlen_writeReply {m : List Byte} (s : State) (h : m.length < 65536) :
    (writeReply m s).rdlen.toNat = m.length - 8 := by
  show (BitVec.ofNat 16 (m.length - 8)).toNat = _
  rw [BitVec.toNat_ofNat]
  omega

end Sys2Proof.Machine
end

