-- ==== Sys2Proof/Laws/Encoding.lean ====
section
/-! SUPPORT. The fields of a packed command word, a word as its fields, and each row of spec/30_encoding.md R73 as
conditions on fields. -/

namespace Sys2Proof

/-- Two words are equal when their bits are. -/
theorem bitVec_eq_iff_fin {n : Nat} (x y : BitVec n) :
    x = y ↔ ∀ i : Fin n, x.getLsbD i = y.getLsbD i :=
  ⟨fun h _ => by rw [h], fun h => BitVec.eq_of_getLsbD_eq fun i hi => h ⟨i, hi⟩⟩

/-! ### Fields of packWord -/

section Pack

variable (h : Half) (b : Byte) (op : BitVec 4)

/-- Bit i of a packed word. -/
theorem getLsbD_packWord (i : Nat) :
    (packWord h b op).getLsbD i =
      (decide (i < 32) &&
        ((!decide (i < 16) && h.getLsbD (i - 16)) || (!decide (i < 8) && b.getLsbD (i - 8))
          || op.getLsbD i)) := by
  by_cases hi : i < 32 <;> simp [packWord, hi]

@[simp] theorem opField_packWord : opField (packWord h b op) = op := by
  apply BitVec.eq_of_getLsbD_eq
  intro i hi
  have h1 : i < 32 := by omega
  have h2 : i < 16 := by omega
  have h3 : i < 8 := by omega
  simp only [opField, BitVec.getLsbD_extractLsb', getLsbD_packWord, Nat.zero_add]
  simp [hi, h1, h2, h3]

@[simp] theorem rsvField_packWord : rsvField (packWord h b op) = 0#4 := by
  apply BitVec.eq_of_getLsbD_eq
  intro i hi
  have h1 : 4 + i < 32 := by omega
  have h2 : 4 + i < 16 := by omega
  have h3 : 4 + i < 8 := by omega
  simp only [rsvField, BitVec.getLsbD_extractLsb', getLsbD_packWord]
  simp [h1, h2, h3]

@[simp] theorem bField_packWord : bField (packWord h b op) = b := by
  apply BitVec.eq_of_getLsbD_eq
  intro i hi
  have h1 : 8 + i < 32 := by omega
  have h2 : 8 + i < 16 := by omega
  simp only [bField, BitVec.getLsbD_extractLsb', getLsbD_packWord]
  simp [hi, h1, h2, BitVec.getLsbD_of_ge op (8 + i) (by omega), -BitVec.getLsbD_eq_getElem]

@[simp] theorem hField_packWord : hField (packWord h b op) = h := by
  apply BitVec.eq_of_getLsbD_eq
  intro i hi
  have h1 : 16 + i < 32 := by omega
  simp only [hField, BitVec.getLsbD_extractLsb', getLsbD_packWord]
  simp [hi, h1, BitVec.getLsbD_of_ge op (16 + i) (by omega),
    BitVec.getLsbD_of_ge b (16 + i - 8) (by omega), -BitVec.getLsbD_eq_getElem]

/-- Bits 8 to 15 of a packed word are B. -/
theorem getLsbD_packWord_b {i : Nat} (hi : i < 8) :
    (packWord h b op).getLsbD (8 + i) = b.getLsbD i := by
  have := congrArg (fun x : Byte => x.getLsbD i) (bField_packWord h b op)
  simpa [bField, hi, -BitVec.getLsbD_eq_getElem] using this

end Pack

/-- A word with RSV = 0 is its other three fields, packed. -/
theorem packWord_fields {w : Word} (h : rsvField w = 0#4) :
    packWord (hField w) (bField w) (opField w) = w := by
  apply BitVec.eq_of_getLsbD_eq
  intro i hi
  rw [getLsbD_packWord]
  simp only [hField, bField, opField, BitVec.getLsbD_extractLsb', hi, decide_true, Bool.true_and]
  by_cases h16 : i < 16
  · by_cases h8 : i < 8
    · by_cases h4 : i < 4
      · simp [h16, h8, h4, -BitVec.getLsbD_eq_getElem]
      · have hr := congrArg (fun x : BitVec 4 => x.getLsbD (i - 4)) h
        have e : 4 + (i - 4) = i := by omega
        have l : i - 4 < 4 := by omega
        simp [rsvField, e, l, -BitVec.getLsbD_eq_getElem] at hr
        simp [h16, h8, h4, hr, -BitVec.getLsbD_eq_getElem]
    · have e : 8 + (i - 8) = i := by omega
      have l : i - 8 < 8 := by omega
      have h4 : ¬ i < 4 := by omega
      simp [h16, h8, h4, e, l, -BitVec.getLsbD_eq_getElem]
  · have e : 16 + (i - 16) = i := by omega
    have l : i - 16 < 16 := by omega
    have h4 : ¬ i < 4 := by omega
    have l8 : ¬ i - 8 < 8 := by omega
    have h8 : ¬ i < 8 := by omega
    simp [h16, h8, h4, l8, e, l, -BitVec.getLsbD_eq_getElem]

/-! ### The rows of R73 as conditions on fields -/

section Rows

variable (w : Word)

/-- The rows CSUM and DECODE. -/
theorem onlySrc_row (p : Word) (op : BitVec 4)
    (hp : p = op.setWidth 32) :
    w &&& 0xFFFFFEFF = p ↔
      opField w = op ∧ rsvField w = 0#4 ∧ w.extractLsb' 9 7 = 0#7 ∧ hField w = 0#16 := by
  subst hp
  simp only [bitVec_eq_iff_fin, opField, rsvField, hField, Fin.forall_fin_succ,
    BitVec.getLsbD_and, BitVec.getLsbD_extractLsb', BitVec.getLsbD_setWidth]
  simp [-BitVec.getLsbD_eq_getElem, Fin.val_succ]
  tauto

/-- The rows without free fields: PATCH, STRIP, SEND, RECV and CLOSE. -/
theorem noFields_row (p : Word) (op : BitVec 4) (hp : p = op.setWidth 32) :
    w &&& 0xFFFFFFFF = p ↔
      opField w = op ∧ rsvField w = 0#4 ∧ bField w = 0#8 ∧ hField w = 0#16 := by
  subst hp
  simp only [bitVec_eq_iff_fin, opField, rsvField, hField, bField, Fin.forall_fin_succ,
    BitVec.getLsbD_and, BitVec.getLsbD_extractLsb', BitVec.getLsbD_setWidth]
  simp [-BitVec.getLsbD_eq_getElem, Fin.val_succ]
  tauto

/-- The row ENCODE. -/
theorem encode_row :
    w &&& 0xFFFF00FF = 0x00000002 ↔ opField w = 2#4 ∧ rsvField w = 0#4 ∧ hField w = 0#16 := by
  simp only [bitVec_eq_iff_fin, opField, rsvField, hField, Fin.forall_fin_succ,
    BitVec.getLsbD_and, BitVec.getLsbD_extractLsb']
  simp [-BitVec.getLsbD_eq_getElem, Fin.val_succ]
  tauto

/-- The row CONSTRUCT. -/
theorem construct_row :
    w &&& 0x0000FCFF = 0x00000006 ↔ opField w = 6#4 ∧ rsvField w = 0#4 ∧ w.extractLsb' 10 6 = 0#6 := by
  simp only [bitVec_eq_iff_fin, opField, rsvField, Fin.forall_fin_succ,
    BitVec.getLsbD_and, BitVec.getLsbD_extractLsb']
  simp [-BitVec.getLsbD_eq_getElem, Fin.val_succ]
  tauto

end Rows

end Sys2Proof
end

