-- ==== Sys2Proof/Laws/Session.lean ====
section
/-! SUPPORT. What the session's shared operations do: the request of a SEND, a datagram stored and stripped, and the
host answers. -/

namespace Sys2Proof.Machine

/-! ### SEND (R127) -/

/-- The message a SEND builds before its checksum is patched in. -/
def unpatched (s : State) : List Byte :=
  echoHeader (requestType s) s.id s.seq ++ payload s

/-- What prepareRequest changes: TXBUF, TXLEN and CSR. -/
theorem prepareRequest_eq {s : State} (h : s.plen.toNat ≤ Config.maxPlen) :
    prepareRequest s = { s with
      mem := (s.mem.writeBytes 0x20000 (unpatched s)).writeBytes 0x20002
        [hi8 (checksum (unpatched s)), lo8 (checksum (unpatched s))]
      txlen := BitVec.ofNat 16 (8 + s.plen.toNat)
      csr := checksum (unpatched s) } := by
  have e := txView_encodeInto (requestType s) s.id s.seq h
  simp only [prepareRequest, e]
  rfl

theorem txlen_prepareRequest {s : State} (h : s.plen.toNat ≤ Config.maxPlen) :
    (prepareRequest s).txlen.toNat = 8 + s.plen.toNat := txlen_encodeInto (requestType s) s.id s.seq h

/-- What memory holds after prepareRequest. -/
theorem read_prepareRequest {s : State} (h : s.plen.toNat ≤ Config.maxPlen) (a : Nat) :
    (prepareRequest s).mem.read a =
      if a = 0x20002 then hi8 (checksum (unpatched s))
      else if a = 0x20003 then lo8 (checksum (unpatched s))
      else if 0x20000 ≤ a ∧ a < 0x20008 + s.plen.toNat then (unpatched s).getD (a - 0x20000) 0
      else s.mem.read a := by
  have e := txView_encodeInto (requestType s) s.id s.seq h
  have hp : prepareRequest s = patchChecksum
      { encodeInto (requestType s) s.id s.seq s with csr := checksum (unpatched s) } := by
    simp only [prepareRequest, e]
    rfl
  rw [hp, read_patchChecksum]
  show (if a = 0x20002 then hi8 (checksum (unpatched s))
    else if a = 0x20003 then lo8 (checksum (unpatched s))
    else (encodeInto (requestType s) s.id s.seq s).mem.read a) = _
  rw [read_encodeInto]
  rfl

theorem length_unpatched (s : State) : (unpatched s).length = 8 + s.plen.toNat :=
  length_message _ _ _ _

/-- The message a SEND hands to the host: the same with its checksum in bytes 2 and 3. -/
def requestMessage (s : State) : List Byte :=
  (unpatched s).take 2 ++ [hi8 (checksum (unpatched s)), lo8 (checksum (unpatched s))] ++
    (unpatched s).drop 4

/-- After prepareRequest, TXV is the patched message. -/
theorem txView_prepareRequest {s : State} (h : s.plen.toNat ≤ Config.maxPlen) :
    txView (prepareRequest s) = requestMessage s := by
  have hl := length_unpatched s
  have ht := txlen_prepareRequest h
  rw [show txView (prepareRequest s) = viewSlice .tx (prepareRequest s) from
    viewBytes_eq_slice .tx _]
  apply List.ext_getElem
  · simp [viewSlice, ht, requestMessage, hl]
    omega
  intro i h1 h2
  simp only [viewSlice, length_bufferSlice, ht] at h1
  have hg : ∀ l : List Byte, ∀ h : i < l.length, l[i] = l.getD i 0 := by
    intro l h
    simp [List.getD_eq_getElem?_getD, h]
  have hi : 0x20000 + (0 + i) - 0x20000 = i := by omega
  have hb : Buffer.txbuf.base = 0x20000 := rfl
  rw [hg, hg, viewSlice, getD_bufferSlice _ _ _ (by omega), hb, read_prepareRequest h, hi,
    if_pos (c := _ ∧ _) (by omega)]
  simp only [show (0x20000 + (0 + i) = 0x20002) ↔ i = 2 by omega,
    show (0x20000 + (0 + i) = 0x20003) ↔ i = 3 by omega]
  rcases i with _ | _ | _ | _ | i <;> simp [requestMessage, unpatched, echoHeader]

/-- The patch does not change the checksum. -/
theorem checksum_requestMessage (s : State) :
    checksum (requestMessage s) = checksum (unpatched s) := rfl

/-! ### A CONSTRUCT that fails (R154) -/

/-- Whatever a CONSTRUCT wrote to h.PEND_* since it kept their values, its failure undoes. -/
theorem restorePending_of_kept {s : State} (h : s.pendBefore = none) (id plen : Half) (addr : Word) :
    restorePending { keepPending s with pendId := id, pendPlen := plen, pendAddr := addr } = s := by
  cases s
  cases h
  rfl

/-! ### RECV (R133) -/

theorem headerLength_toNat (b : Byte) : (headerLength b).toNat = 4 * (b.toNat % 16) := by
  have h : ∀ b : Byte, (headerLength b).toNat = 4 * (b.toNat % 16) := by decide
  exact h b

/-- What storing a datagram changes: RXBUF and RXLEN. -/
theorem storeDatagram_eq (d : List Byte) (s : State) :
    storeDatagram d s = { s with
      mem := s.mem.writeBytes 0x30000 (d.take (68 + s.plen.toNat))
      rxlen := BitVec.ofNat 16 (min d.length (68 + s.plen.toNat)) } := rfl

/-- What memory holds after a datagram was stored. -/
theorem read_storeDatagram (d : List Byte) (s : State) (a : Nat) :
    (storeDatagram d s).mem.read a =
      if 0x30000 ≤ a ∧ a < 0x30000 + min d.length (68 + s.plen.toNat) then d.getD (a - 0x30000) 0
      else s.mem.read a := by
  rw [storeDatagram_eq]
  show Memory.read (Memory.writeBytes _ _ _) a = _
  rw [Memory.read_writeBytes, List.length_take, Nat.min_comm]
  by_cases h : 0x30000 ≤ a ∧ a < 0x30000 + min d.length (68 + s.plen.toNat)
  · rw [if_pos h, if_pos h]
    have : a - 0x30000 < 68 + s.plen.toNat := by omega
    simp [List.getD_eq_getElem?_getD, this]
  · rw [if_neg h, if_neg h]

theorem rxlen_storeDatagram {s : State} (h : s.plen.toNat ≤ Config.maxPlen) (d : List Byte) :
    (storeDatagram d s).rxlen.toNat = min d.length (68 + s.plen.toNat) := by
  have hb := Config.maxPlen_bounds
  show (BitVec.ofNat 16 (min d.length (68 + s.plen.toNat))).toNat = _
  rw [BitVec.toNat_ofNat]
  exact Nat.mod_eq_of_lt (by omega)

/-- The offset after the strip is the header length the datagram declares. -/
theorem off_stripDatagram {s : State} (hf : s.family = 0) {d : List Byte} (hd : d ≠ []) :
    (stripDatagram (storeDatagram d s)).off.toNat = declaredHeader d := by
  have hf' : (storeDatagram d s).family = 0 := hf
  have hl : 0 < d.length := List.length_pos_iff.2 hd
  simp only [stripDatagram, hf', if_true, headerLength_toNat, bufByte, Buffer.base,
    read_storeDatagram]
  rw [if_pos (by omega)]
  rfl

/-- The identifier the filter reads is the datagram's. -/
theorem enclosedId_stripDatagram {s : State} (hf : s.family = 0) {d : List Byte}
    (hd : HasId d (68 + s.plen.toNat)) :
    enclosedId (stripDatagram (storeDatagram d s)) = declaredId d := by
  have h2 := hd.2
  simp only [enclosedId, off_stripDatagram hf hd.1, bufByte, stripDatagram_mem, Buffer.base,
    read_storeDatagram, declaredId]
  rw [if_pos (by omega), if_pos (by omega),
    show 0x30000 + (declaredHeader d + 4) - 0x30000 = declaredHeader d + 4 by omega,
    show 0x30000 + (declaredHeader d + 5) - 0x30000 = declaredHeader d + 5 by omega]

/-- A datagram: stored, then refused if it is empty (OFF a free value), else stripped and filtered. -/
theorem recvDatagram_eq (d : List Byte) (src : Word) (s : State) :
    recvDatagram d src s =
      if s.family = 0 ∧ min d.length (68 + s.plen.toNat) = 0 then
        recvFail .malformedInput (freeOffset (storeDatagram d s))
      else recvFilter (min d.length (68 + s.plen.toNat)) src (stripDatagram (storeDatagram d s)) :=
  rfl

/-- An empty datagram: RXLEN is 0, OFF takes the free value, and RECV ends with MalformedInput. -/
theorem recvDatagram_nil {s : State} (src : Word) (hf : s.family = 0) :
    recvDatagram [] src s = recvFail .malformedInput
      { s with
        rxlen := 0
        off := Config.emptyDatagramOff s.freeCount s.off (s.mem.read 0x30000)
        freeCount := s.freeCount + 1 } := by
  have hs : storeDatagram [] s = { s with rxlen := 0 } := by
    simp [storeDatagram_eq, Memory.writeBytes]
  rw [recvDatagram_eq, if_pos ⟨hf, by simp⟩, hs]
  rfl

/-- A datagram that is not empty reaches the filter. -/
theorem recvDatagram_of_ne_nil {s : State} {d : List Byte} (src : Word) (hd : d ≠ []) :
    recvDatagram d src s =
      recvFilter (min d.length (68 + s.plen.toNat)) src (stripDatagram (storeDatagram d s)) := by
  have hl : 0 < d.length := List.length_pos_iff.2 hd
  rw [recvDatagram_eq, if_neg (by omega)]

/-- The filter on a datagram with another identifier. -/
theorem recvDatagram_discard {s : State} {d : List Byte} (src : Word) (hf : s.family = 0)
    (hd : HasId d (68 + s.plen.toNat)) (hid : declaredId d ≠ s.id) :
    recvDatagram d src s =
      ask .recvWait (.recvfrom (68 + s.plen.toNat)) (stripDatagram (storeDatagram d s)) := by
  have h2 := hd.2
  rw [recvDatagram_of_ne_nil src hd.1, recvFilter, off_stripDatagram hf hd.1,
    if_neg (by omega), enclosedId_stripDatagram hf hd, stripDatagram_id, storeDatagram_id,
    if_pos hid]
  rfl

/-- The message a datagram encloses, cut at the receive capacity. -/
def enclosedMessage (d : List Byte) (capacity : Nat) : List Byte :=
  (d.take capacity).drop (declaredHeader d)

theorem length_enclosedMessage (d : List Byte) (capacity : Nat) :
    (enclosedMessage d capacity).length = min d.length capacity - declaredHeader d := by
  simp only [enclosedMessage, List.length_drop, List.length_take]
  omega

theorem getD_enclosedMessage {d : List Byte} {capacity k : Nat}
    (h : k < min d.length capacity - declaredHeader d) :
    (enclosedMessage d capacity).getD k 0 = d.getD (declaredHeader d + k) 0 := by
  simp only [enclosedMessage, List.getD_eq_getElem?_getD, List.getElem?_drop, List.getElem?_take]
  rw [if_pos (by omega)]

/-- The bytes RECV decodes are the enclosed message. -/
theorem bufBytes_stripDatagram (d : List Byte) (s : State) :
    bufBytes .rxbuf (declaredHeader d) (min d.length (68 + s.plen.toNat) - declaredHeader d)
      (stripDatagram (storeDatagram d s)) = enclosedMessage d (68 + s.plen.toNat) := by
  rw [bufBytes_eq_slice]
  apply List.ext_getElem
  · simp [length_enclosedMessage]
  intro i h1 h2
  simp only [length_bufferSlice] at h1
  simp only [bufferSlice, List.getElem_map, List.getElem_range, stripDatagram_mem,
    read_storeDatagram, Buffer.base]
  rw [if_pos (by omega),
    show 0x30000 + (declaredHeader d + i) - 0x30000 = declaredHeader d + i by omega]
  simp only [enclosedMessage, List.getElem_drop, List.getElem_take]
  rw [List.getD_eq_getElem?_getD, List.getElem?_eq_getElem]
  rfl

/-- The filter and the decoder on a datagram with this session's identifier and a whole header. -/
theorem recvDatagram_accept {s : State} {d : List Byte} (src : Word) (hf : s.family = 0)
    (hne : d ≠ []) (hid : declaredId d = s.id)
    (h8 : declaredHeader d + 8 ≤ min d.length (68 + s.plen.toNat)) :
    recvDatagram d src s = complete .none (setPhase .opened
      { writeReply (enclosedMessage d (68 + s.plen.toNat)) (stripDatagram (storeDatagram d s)) with
        rtotlen := BitVec.ofNat 16 (min d.length (68 + s.plen.toNat))
        rsrc := src }) := by
  have hd : HasId d (68 + s.plen.toNat) := ⟨hne, by omega⟩
  rw [recvDatagram_of_ne_nil src hne, recvFilter, off_stripDatagram hf hne, if_neg (by omega),
    enclosedId_stripDatagram hf hd, stripDatagram_id, storeDatagram_id, if_neg (not_not.2 hid),
    recvAccept, off_stripDatagram hf hne, bufBytes_stripDatagram,
    decodeFrom_of_whole (by rw [length_enclosedMessage]; omega)]

/-! ### Answers (R120) -/

theorem answerAllowed_iff (a : HostAnswer) (s : State) :
    answerAllowed a s = true ↔ AnswersPending a s := by
  cases a <;> simp [answerAllowed, AnswersPending]

theorem hostAnswer_of_pending {a : HostAnswer} {s : State} (h : AnswersPending a s) :
    hostAnswer a s = takeAnswer a s :=
  if_pos ((answerAllowed_iff a s).2 h)

theorem hostAnswer_of_not_pending {a : HostAnswer} {s : State} (h : ¬ AnswersPending a s) :
    hostAnswer a s = violate (.answer a) s :=
  if_neg fun ha => h ((answerAllowed_iff a s).1 ha)

end Sys2Proof.Machine
end

