-- ==== Sys2Proof/Laws/HostPort.lean ====
section
/-! SUPPORT. The address map: what an access reaches, and which accesses reach nothing (spec/20_memory.md R53 to
R55). -/

namespace Sys2Proof.Machine

theorem Reg.atOffset_offset (r : Reg) : Reg.atOffset r.offset = some r := by
  cases r <;> decide

theorem Reg.offset_of_atOffset {a : Nat} {r : Reg} (h : Reg.atOffset a = some r) :
    r.offset = a := by
  have := List.find?_some h
  simpa using this

theorem Reg.offset_lt (r : Reg) : r.offset < 0x58 := by
  cases r <;> decide

theorem Reg.offset_injective {r q : Reg} (h : r.offset = q.offset) : r = q := by
  have h1 := Reg.atOffset_offset r
  rw [h, Reg.atOffset_offset] at h1
  exact (Option.some.inj h1).symm

/-- What an access of a register's offset reaches. -/
theorem locate_offset (r : Reg) : locate (BitVec.ofNat 20 r.offset) 4 = some (.reg r) := by
  cases r <;> decide

/-- The byte of a buffer at an address inside it. -/
theorem Buffer.atAddr_eq_some_iff (b : Buffer) (a : Nat) (p : Place) :
    b.atAddr a = some p ↔ ∃ i, i < b.size ∧ a = b.base + i ∧ p = .byte b i := by
  unfold Buffer.atAddr
  constructor
  · intro h
    split at h
    · rename_i hc
      exact ⟨a - b.base, hc.2, by omega, (Option.some.inj h).symm⟩
    · cases h
  · rintro ⟨i, hi, rfl, rfl⟩
    have h1 : b.base + i - b.base = i := by omega
    rw [if_pos ⟨by omega, by omega⟩, h1]

theorem Buffer.atAddr_eq_none_of_window {b c : Buffer} {i : Nat} (hi : i < c.size) (h : b ≠ c) :
    b.atAddr (c.base + i) = none := by
  have hb := b.size_lt
  have hc := c.size_lt
  unfold Buffer.atAddr
  rw [if_neg]
  rintro ⟨h1, h2⟩
  cases b <;> cases c <;> simp [Buffer.base] at h h1 h2 <;> omega

theorem Buffer.base_ge (b : Buffer) : 0x10000 ≤ b.base := by
  cases b <;> decide

theorem Buffer.base_add_lt (b : Buffer) {i : Nat} (hi : i < b.size) : b.base + i < 2 ^ 20 := by
  have := b.size_lt
  cases b <;> simp only [Buffer.base] <;> omega

/-- What an access reaches, in full: a register, with 4 bytes at its offset, or a byte of a buffer, with 1 byte at its
address. -/
theorem locate_eq_some_iff (addr : HostAddr) (size : Nat) (p : Place) :
    locate addr size = some p ↔
      (size = 4 ∧ ∃ r : Reg, addr.toNat = r.offset ∧ p = .reg r) ∨
        (size = 1 ∧ ∃ (b : Buffer) (i : Nat),
          i < b.size ∧ addr.toNat = b.base + i ∧ p = .byte b i) := by
  unfold locate
  by_cases ha : addr.toNat < 0x10000
  · rw [if_pos ha]
    have hno : ∀ (b : Buffer) (i : Nat), addr.toNat ≠ b.base + i := by
      intro b i
      have := b.base_ge
      omega
    by_cases h4 : size = 4
    · subst h4
      constructor
      · intro h
        rw [if_pos rfl] at h
        obtain ⟨r, hr, rfl⟩ := Option.map_eq_some_iff.1 h
        exact .inl ⟨rfl, r, (Reg.offset_of_atOffset hr).symm, rfl⟩
      · rintro (⟨-, r, hr, rfl⟩ | ⟨h, -⟩)
        · rw [if_pos rfl, hr, Reg.atOffset_offset]
          rfl
        · omega
    · rw [if_neg h4]
      constructor
      · intro h
        cases h
      · rintro (⟨h, -⟩ | ⟨-, b, i, -, h, -⟩)
        · exact absurd h h4
        · exact absurd h (hno b i)
  · rw [if_neg ha]
    have hno : ∀ r : Reg, addr.toNat ≠ r.offset := by
      intro r
      have := r.offset_lt
      omega
    by_cases h1 : size = 1
    · subst h1
      rw [if_pos rfl]
      constructor
      · intro h
        refine .inr ⟨rfl, ?_⟩
        simp only [Option.or_eq_some_iff] at h
        rcases h with h | ⟨-, h | ⟨-, h | ⟨-, h⟩⟩⟩ <;>
          exact ⟨_, (Buffer.atAddr_eq_some_iff _ _ _).1 h⟩
      · rintro (⟨h, -⟩ | ⟨-, b, i, hi, hb, rfl⟩)
        · omega
        · have hsome : b.atAddr addr.toNat = some (.byte b i) :=
            (Buffer.atAddr_eq_some_iff _ _ _).2 ⟨i, hi, hb, rfl⟩
          have hnone : ∀ c : Buffer, c ≠ b → c.atAddr addr.toNat = none := by
            intro c hc
            rw [hb]
            exact Buffer.atAddr_eq_none_of_window hi hc
          cases b
          · rw [hsome]
            rfl
          · rw [hnone .payload (by decide), hsome]
            rfl
          · rw [hnone .payload (by decide), hnone .txbuf (by decide), hsome]
            rfl
          · rw [hnone .payload (by decide), hnone .txbuf (by decide), hnone .rxbuf (by decide),
              hsome]
            rfl
    · rw [if_neg h1]
      constructor
      · intro h
        cases h
      · rintro (⟨-, r, h, -⟩ | ⟨h, -⟩)
        · exact absurd h (hno r)
        · exact absurd h h1

/-- An access reaches nothing exactly when the host port has no such access. -/
theorem locate_eq_none_iff (addr : HostAddr) (size : Nat) :
    locate addr size = none ↔ ¬ AccessExists addr size := by
  constructor
  · rintro h (⟨h4, r, hr⟩ | ⟨h1, b, i, hi, hb⟩)
    · have := (locate_eq_some_iff addr size (.reg r)).2 (.inl ⟨h4, r, hr, rfl⟩)
      simp [h] at this
    · have := (locate_eq_some_iff addr size (.byte b i)).2 (.inr ⟨h1, b, i, hi, hb, rfl⟩)
      simp [h] at this
  · intro h
    cases hl : locate addr size with
    | none => rfl
    | some p =>
      rcases (locate_eq_some_iff addr size p).1 hl with ⟨h4, r, hr, -⟩ | ⟨h1, b, i, hi, hb, -⟩
      · exact absurd (.inl ⟨h4, r, hr⟩) h
      · exact absurd (.inr ⟨h1, b, i, hi, hb⟩) h

/-- What a 1-byte access at a buffer byte's address reaches. -/
theorem locate_byte (b : Buffer) {i : Nat} (hi : i < b.size) :
    locate (BitVec.ofNat 20 (b.base + i)) 1 = some (.byte b i) := by
  refine (locate_eq_some_iff _ _ _).2 (.inr ⟨rfl, b, i, hi, ?_, rfl⟩)
  rw [BitVec.toNat_ofNat]
  exact Nat.mod_eq_of_lt (b.base_add_lt hi)

/-- The access that reaches CMD. -/
theorem locate_eq_cmd_iff (addr : HostAddr) (size : Nat) :
    locate addr size = some (.reg .cmd) ↔ addr = 0 ∧ size = 4 := by
  rw [locate_eq_some_iff]
  constructor
  · rintro (⟨h4, r, hr, hp⟩ | ⟨-, b, i, -, -, hp⟩)
    · cases hp
      exact ⟨BitVec.eq_of_toNat_eq hr, h4⟩
    · cases hp
  · rintro ⟨rfl, rfl⟩
    exact .inl ⟨rfl, .cmd, rfl, rfl⟩

end Sys2Proof.Machine
end

