-- ==== Sys2Proof/Laws/Step.lean ====
section
/-! SUPPORT. One step, by the action at the head of the script, and how a run of several steps is taken apart. -/

namespace Sys2Proof.Machine

theorem step_cons {s : State} {a : HostAction} {rest : List HostAction} (h : s.script = a :: rest) :
    step s = runAction a { s with script := rest } := by
  rw [step, takeAction, h]

theorem step_read {s : State} {addr : HostAddr} {size : Nat} {rest : List HostAction}
    (h : s.script = .read addr size :: rest) :
    step s = .next (hostRead addr size { s with script := rest }) := step_cons h

theorem step_answer {s : State} {a : HostAnswer} {rest : List HostAction}
    (h : s.script = .answer a :: rest) :
    step s = .next (hostAnswer a { s with script := rest }) := step_cons h

theorem step_reset {s : State} {rest : List HostAction} (h : s.script = .reset :: rest) :
    step s = .next (hardReset { s with script := rest }) := step_cons h

theorem issues_eq_true_iff (addr : HostAddr) (size : Nat) (s : State) :
    issues addr size s = true ↔ s.status.busy = false ∧ addr = 0 ∧ size = 4 := by
  rw [issues, Bool.and_eq_true, decide_eq_true_iff, locate_eq_cmd_iff, Bool.not_eq_true']

/-- A write to CMD while BUSY = 0 issues its word. -/
theorem step_command {s : State} {w : Word} {rest : List HostAction} (hb : s.status.busy = false)
    (h : s.script = .write 0x00000 4 w :: rest) :
    step s = issue w { s with script := rest } := by
  rw [step_cons h, runAction, if_pos]
  exact (issues_eq_true_iff _ _ _).2 ⟨hb, rfl, rfl⟩

/-- Any other write stores, or is a violation. -/
theorem step_store {s : State} {addr : HostAddr} {size : Nat} {v : Word} {rest : List HostAction}
    (h : s.script = .write addr size v :: rest) (hn : ¬ (s.status.busy = false ∧ addr = 0 ∧ size = 4)) :
    step s = .next (hostStore addr size v { s with script := rest }) := by
  rw [step_cons h, runAction, if_neg]
  exact fun hi => hn ((issues_eq_true_iff _ _ _).1 hi)

/-- Issuing a command writes its word to CMD. -/
theorem issueCommand_eq (i : Instr) : issueCommand i = .write 0x00000 4 (encode i) := rfl

/-- A step of a run. -/
theorem runSteps_succ {n : Nat} {s t : State} (h : step s = .next t) :
    runSteps (n + 1) s = runSteps n t := by
  rw [runSteps, h]

/-- A run of no steps. -/
@[simp] theorem runSteps_zero (s : State) : runSteps 0 s = .next s := rfl

/-- A run in two parts. -/
theorem runSteps_add {m n : Nat} {s t : State} (h : runSteps m s = .next t) :
    runSteps (m + n) s = runSteps n t := by
  induction m generalizing s with
  | zero =>
    cases h
    rw [Nat.zero_add]
  | succ m ih =>
    rw [runSteps] at h
    rw [Nat.succ_add, runSteps]
    cases hs : step s with
    | next u =>
      rw [hs] at h
      exact ih h
    | fault r => exact nomatch r
    | refused r =>
      rw [hs] at h
      cases h

end Sys2Proof.Machine
end

