-- ==== Sys2Proof/Laws/Exec.lean ====
section
/-! SUPPORT. What a command, an answer and a step can do, said once: one equation per command and outcome, and the case
distinctions that the invariants and the whole-machine rules go through. -/

namespace Sys2Proof.Machine

variable {s t : State}

/-! ### Commands, outcome by outcome -/

theorem exec_csum (v : View) (s : State) :
    exec (.csum v) s = .next (complete .none { s with csr := checksum (viewSlice v s) }) := by
  rw [← viewBytes_eq_slice]
  rfl

theorem exec_encode (ty : Byte) (s : State) :
    exec (.encode ty) s = .next (complete .none (encodeInto ty (argHigh s) (argLow s) s)) := rfl

theorem exec_patch (h : 8 ≤ s.txlen.toNat) :
    exec .patch s = .next (complete .none (patchChecksum s)) :=
  if_neg (Nat.not_lt.2 h)

theorem exec_patch_short (h : s.txlen.toNat < 8) :
    exec .patch s = .next (complete .malformedInput s) :=
  if_pos h

theorem exec_decode {v : View} (h : 8 ≤ (viewSlice v s).length) :
    exec (.decode v) s = .next (complete .none (writeReply (viewSlice v s) s)) := by
  rw [exec, execDecode, viewBytes_eq_slice, decodeFrom_of_whole h]
  rfl

theorem exec_decode_short {v : View} (h : (viewSlice v s).length < 8) :
    exec (.decode v) s = .next (complete .malformedInput s) := by
  rw [exec, execDecode, viewBytes_eq_slice, decodeFrom_of_short h]
  rfl

theorem exec_strip (h : s.rxlen ≠ 0) :
    exec .strip s = .next (complete .none { s with off := headerLength (s.mem.read 0x30000) }) :=
  if_neg h

theorem exec_strip_empty (h : s.rxlen = 0) :
    exec .strip s = .next (complete .malformedInput s) :=
  if_pos h

theorem argLow_toNat (s : State) : (argLow s).toNat = s.arg.toNat % 65536 := by
  simp [argLow]

theorem exec_construct {plp : Bool} {id : Half} (h : s.status.phase = .noSession)
    (ha : plp = true → (argLow s).toNat ≤ Config.maxPlen) :
    exec (.construct .v4 plp id) s =
      .next (ask .constructResolve (.resolve s.dest 0) (setBusy
        { keepPending s with pendId := id, pendPlen := if plp then argLow s else 56 })) := by
  rw [exec, execConstruct, if_neg (not_not.2 h), if_neg (by decide), if_neg fun hc => hc.2 (ha hc.1)]
  rfl

theorem exec_send (h : s.status.phase = .opened) :
    exec .send s = .next (ask .sendTx (.sendto (txView (prepareRequest s)) s.saddr)
      (setBusy (setPhase .sending (prepareRequest s)))) :=
  if_neg (not_not.2 h)

theorem exec_recv (h : s.status.phase = .opened) :
    exec .recv s = .next (ask .recvWait (.recvfrom (68 + s.plen.toNat))
      (setBusy (setPhase .awaiting s))) :=
  if_neg (not_not.2 h)

theorem exec_close (h : s.status.phase = .opened) :
    exec .close s =
      .next (complete .none (setPhase .noSession { notify .close s with sock := .none })) :=
  if_neg (not_not.2 h)

/-- SEND, RECV and CLOSE without an open session. -/
theorem exec_of_not_opened {i : Instr} (hi : i = .send ∨ i = .recv ∨ i = .close)
    (h : s.status.phase ≠ .opened) : exec i s = .next (complete .sessionState s) := by
  rcases hi with rfl | rfl | rfl <;> exact if_pos h

/-- A command does one of these: it fails at once and writes nothing but STATUS and h.STEP, it has its effect and
completes, or it asks the host and waits. -/
theorem exec_cases {i : Instr} (h : exec i s = .next t) :
    (∃ e, e ≠ .none ∧ t = complete e s) ∨
    (∃ v, i = .csum v ∧ t = complete .none { s with csr := checksum (viewSlice v s) }) ∨
    (∃ ty, i = .encode ty ∧ t = complete .none (encodeInto ty (argHigh s) (argLow s) s)) ∨
    (i = .patch ∧ 8 ≤ s.txlen.toNat ∧ t = complete .none (patchChecksum s)) ∨
    (∃ v, i = .decode v ∧ 8 ≤ (viewSlice v s).length ∧
      t = complete .none (writeReply (viewSlice v s) s)) ∨
    (i = .strip ∧ s.rxlen ≠ 0 ∧
      t = complete .none { s with off := headerLength (s.mem.read 0x30000) }) ∨
    (∃ plp id, i = .construct .v4 plp id ∧ s.status.phase = .noSession ∧
      (plp = true → (argLow s).toNat ≤ Config.maxPlen) ∧
      t = ask .constructResolve (.resolve s.dest 0) (setBusy
        { keepPending s with pendId := id, pendPlen := if plp then argLow s else 56 })) ∨
    (i = .send ∧ s.status.phase = .opened ∧
      t = ask .sendTx (.sendto (txView (prepareRequest s)) s.saddr)
        (setBusy (setPhase .sending (prepareRequest s)))) ∨
    (i = .recv ∧ s.status.phase = .opened ∧
      t = ask .recvWait (.recvfrom (68 + s.plen.toNat)) (setBusy (setPhase .awaiting s))) ∨
    (i = .close ∧ s.status.phase = .opened ∧
      t = complete .none (setPhase .noSession { notify .close s with sock := .none })) := by
  cases i with
  | csum v =>
    rw [exec_csum] at h
    cases h
    exact .inr (.inl ⟨v, rfl, rfl⟩)
  | encode ty =>
    rw [exec_encode] at h
    cases h
    exact .inr (.inr (.inl ⟨ty, rfl, rfl⟩))
  | patch =>
    by_cases hl : s.txlen.toNat < 8
    · rw [exec_patch_short hl] at h
      cases h
      exact .inl ⟨_, by decide, rfl⟩
    · rw [exec_patch (by omega)] at h
      cases h
      exact .inr (.inr (.inr (.inl ⟨rfl, by omega, rfl⟩)))
  | decode v =>
    by_cases hl : (viewSlice v s).length < 8
    · rw [exec_decode_short hl] at h
      cases h
      exact .inl ⟨_, by decide, rfl⟩
    · rw [exec_decode (by omega)] at h
      cases h
      exact .inr (.inr (.inr (.inr (.inl ⟨v, rfl, by omega, rfl⟩))))
  | strip =>
    by_cases hl : s.rxlen = 0
    · rw [exec_strip_empty hl] at h
      cases h
      exact .inl ⟨_, by decide, rfl⟩
    · rw [exec_strip hl] at h
      cases h
      exact .inr (.inr (.inr (.inr (.inr (.inl ⟨rfl, hl, rfl⟩)))))
  | construct fam plp id =>
    rw [exec, execConstruct] at h
    by_cases h1 : s.status.phase ≠ .noSession
    · rw [if_pos h1] at h
      cases h
      exact .inl ⟨_, by decide, rfl⟩
    rw [if_neg h1] at h
    by_cases h2 : fam = .v6
    · rw [if_pos h2] at h
      cases h
      exact .inl ⟨_, by decide, rfl⟩
    rw [if_neg h2] at h
    by_cases h3 : plp = true ∧ ¬ (argLow s).toNat ≤ Config.maxPlen
    · rw [if_pos h3] at h
      cases h
      exact .inl ⟨_, by decide, rfl⟩
    rw [if_neg h3] at h
    cases h
    have hf : fam = .v4 := by
      cases fam
      · rfl
      · exact absurd rfl h2
    subst hf
    exact .inr (.inr (.inr (.inr (.inr (.inr (.inl ⟨plp, id, rfl, not_not.1 h1,
      fun hp => not_not.1 fun hn => h3 ⟨hp, hn⟩, rfl⟩))))))
  | send =>
    by_cases hp : s.status.phase = .opened
    · rw [exec_send hp] at h
      cases h
      exact .inr (.inr (.inr (.inr (.inr (.inr (.inr (.inl ⟨rfl, hp, rfl⟩)))))))
    · rw [exec_of_not_opened (.inl rfl) hp] at h
      cases h
      exact .inl ⟨_, by decide, rfl⟩
  | recv =>
    by_cases hp : s.status.phase = .opened
    · rw [exec_recv hp] at h
      cases h
      exact .inr (.inr (.inr (.inr (.inr (.inr (.inr (.inr (.inl ⟨rfl, hp, rfl⟩))))))))
    · rw [exec_of_not_opened (.inr (.inl rfl)) hp] at h
      cases h
      exact .inl ⟨_, by decide, rfl⟩
  | close =>
    by_cases hp : s.status.phase = .opened
    · rw [exec_close hp] at h
      cases h
      exact .inr (.inr (.inr (.inr (.inr (.inr (.inr (.inr (.inr ⟨rfl, hp, rfl⟩))))))))
    · rw [exec_of_not_opened (.inr (.inr rfl)) hp] at h
      cases h
      exact .inl ⟨_, by decide, rfl⟩

/-! ### Datagrams -/

/-- What a datagram does: it is stored; then it ends RECV with MalformedInput (empty, stripped or not), or is discarded
and the next one asked for, or is decoded. -/
theorem recvDatagram_cases (d : List Byte) (src : Word) (s : State) :
    (s.family = 0 ∧ min d.length (68 + s.plen.toNat) = 0 ∧
      recvDatagram d src s = recvFail .malformedInput (freeOffset (storeDatagram d s))) ∨
    (recvDatagram d src s = recvFail .malformedInput (stripDatagram (storeDatagram d s))) ∨
    (enclosedId (stripDatagram (storeDatagram d s)) ≠ s.id ∧
      recvDatagram d src s = ask .recvWait (.recvfrom (68 + s.plen.toNat))
        (stripDatagram (storeDatagram d s))) ∨
    (∃ m, m = bufferSlice .rxbuf (stripDatagram (storeDatagram d s)).off.toNat
          (min d.length (68 + s.plen.toNat) - (stripDatagram (storeDatagram d s)).off.toNat)
          (stripDatagram (storeDatagram d s)) ∧ 8 ≤ m.length ∧
      enclosedId (stripDatagram (storeDatagram d s)) = s.id ∧
      recvDatagram d src s = complete .none (setPhase .opened
        { writeReply m (stripDatagram (storeDatagram d s)) with
          rtotlen := BitVec.ofNat 16 (min d.length (68 + s.plen.toNat))
          rsrc := src })) := by
  rw [recvDatagram_eq]
  by_cases h1 : s.family = 0 ∧ min d.length (68 + s.plen.toNat) = 0
  · rw [if_pos h1]
    exact .inl ⟨h1.1, h1.2, rfl⟩
  rw [if_neg h1, recvFilter]
  by_cases h2 : min d.length (68 + s.plen.toNat) < (stripDatagram (storeDatagram d s)).off.toNat + 6
  · rw [if_pos h2]
    exact .inr (.inl rfl)
  rw [if_neg h2]
  by_cases h3 : enclosedId (stripDatagram (storeDatagram d s)) ≠
      (stripDatagram (storeDatagram d s)).id
  · rw [if_pos h3]
    exact .inr (.inr (.inl ⟨h3, rfl⟩))
  rw [if_neg h3, recvAccept, bufBytes_eq_slice]
  by_cases h4 : (bufferSlice .rxbuf (stripDatagram (storeDatagram d s)).off.toNat
      (min d.length (68 + s.plen.toNat) - (stripDatagram (storeDatagram d s)).off.toNat)
      (stripDatagram (storeDatagram d s))).length < 8
  · rw [decodeFrom_of_short h4]
    exact .inr (.inl rfl)
  · rw [decodeFrom_of_whole (by omega)]
    exact .inr (.inr (.inr ⟨_, rfl, by omega, not_not.1 h3, rfl⟩))

/-! ### Steps -/

/-- The step of a command that the script issues, given what its word decodes to. -/
theorem step_issueCommand {i : Instr} {rest : List HostAction} (hd : decode (encode i) = .ok i)
    (hb : s.status.busy = false) (h : s.script = issueCommand i :: rest) :
    step s = exec i (recordIssue (encode i) { s with script := rest }) := by
  rw [step_command hb h, issue, hd]

/-- The step of an answer that the script gives to the pending request. -/
theorem step_pendingAnswer {a : HostAnswer} {rest : List HostAction} (hp : AnswersPending a s)
    (h : s.script = .answer a :: rest) :
    step s = .next (takeAnswer a { s with script := rest }) := by
  rw [step_answer h, hostAnswer_of_pending (s := { s with script := rest }) (by cases a <;> exact hp)]

/-- A host write that issues nothing: a violation, or a register or byte that takes its value. -/
theorem hostStore_cases (addr : HostAddr) (size : Nat) (v : Word) (s : State) :
    hostStore addr size v s = violate (.write addr size v) s ∨
    (s.status.busy = false ∧ ∃ r, addr.toNat = r.offset ∧ size = 4 ∧
      writeReg r v s = some (hostStore addr size v s)) ∨
    (s.status.busy = false ∧ ∃ (b : Buffer) (i : Nat), i < b.size ∧ addr.toNat = b.base + i ∧
      b.hostWritable = true ∧ hostStore addr size v s = bufWrite b i [v.setWidth 8] s) := by
  unfold hostStore
  by_cases hb : s.status.busy = true
  · exact .inl (if_pos hb)
  · have hb' : s.status.busy = false := by simpa using hb
    rw [if_neg hb]
    cases hl : locate addr size with
    | none => exact .inl rfl
    | some p =>
      rcases (locate_eq_some_iff _ _ _).1 hl with ⟨h4, r, hr, rfl⟩ | ⟨-, b, i, hi, ha, rfl⟩
      · cases hw : writeReg r v s with
        | none => exact .inl (by simp [writePlace, hw])
        | some s' =>
          exact .inr (.inl ⟨hb', r, hr, h4, by simp [writePlace, hw]⟩)
      · cases hw : b.hostWritable with
        | false => exact .inl (by simp [writePlace, writeByte, hw])
        | true =>
          exact .inr (.inr ⟨hb', b, i, hi, ha, hw, by simp [writePlace, writeByte, hw]⟩)

/-- What a host write to a register other than CMD can change. -/
theorem writeReg_cases {r : Reg} {v : Word} {s' : State} (h : writeReg r v s = some s') :
    (r = .arg ∧ s' = { s with arg := v }) ∨ (r = .dest ∧ s' = { s with dest := v }) ∨
    (r = .plen ∧ s.status.phase = .noSession ∧ (v.setWidth 16).toNat ≤ Config.maxPlen ∧
      s' = { s with plen := v.setWidth 16 }) ∨
    (r = .off ∧ s' = { s with off := v.setWidth 16 }) ∨
    (r = .rxlen ∧ (v.setWidth 16).toNat ≤ Buffer.rxbuf.size ∧
      s' = { s with rxlen := v.setWidth 16 }) := by
  unfold writeReg at h
  cases r <;> simp only [reduceCtorEq] at h
  · cases h
    exact .inl ⟨rfl, rfl⟩
  · cases h
    exact .inr (.inl ⟨rfl, rfl⟩)
  · split_ifs at h with hc
    cases h
    refine .inr (.inr (.inl ⟨rfl, hc.1, ?_, rfl⟩))
    rw [BitVec.toNat_setWidth]
    exact (Nat.mod_le _ _).trans hc.2
  · cases h
    exact .inr (.inr (.inr (.inl ⟨rfl, rfl⟩)))
  · split_ifs at h with hc
    cases h
    refine .inr (.inr (.inr (.inr ⟨rfl, ?_, rfl⟩)))
    rw [BitVec.toNat_setWidth]
    exact (Nat.mod_le _ _).trans hc

/-- What one host action can do to the block, the action taken from the script first. -/
theorem runAction_cases {a : HostAction} (h : runAction a s = .next t) :
    t = violate a s ∨
    (∃ addr size v, a = .read addr size ∧ t = observe v s) ∨
    (a = .reset ∧ t = hardReset s) ∨
    (∃ ans, a = .answer ans ∧ AnswersPending ans s ∧ t = takeAnswer ans s) ∨
    (∃ w, a = .write 0x00000 4 w ∧ s.status.busy = false ∧
      (t = complete .illegalCommand (recordIssue w s) ∨
        ∃ i, decode w = .ok i ∧ exec i (recordIssue w s) = .next t)) ∨
    (∃ addr size v, a = .write addr size v ∧ s.status.busy = false ∧
      ((∃ r, writeReg r v s = some t) ∨
        ∃ (b : Buffer) (i : Nat), i < b.size ∧ b.hostWritable = true ∧
          t = bufWrite b i [v.setWidth 8] s)) := by
  cases a with
  | read addr size =>
    cases h
    unfold hostRead
    split
    · exact .inr (.inl ⟨addr, size, _, rfl, rfl⟩)
    · exact .inr (.inl ⟨addr, size, _, rfl, rfl⟩)
    · exact .inl rfl
  | write addr size v =>
    by_cases hi : issues addr size s = true
    · rw [runAction, if_pos hi] at h
      obtain ⟨hb, rfl, rfl⟩ := (issues_eq_true_iff _ _ _).1 hi
      refine .inr (.inr (.inr (.inr (.inl ⟨v, rfl, hb, ?_⟩))))
      unfold issue at h
      split at h
      · cases h
        exact .inl rfl
      · exact .inr ⟨_, ‹_›, h⟩
    · rw [runAction, if_neg hi] at h
      cases h
      rcases hostStore_cases addr size v s with h | ⟨hb, r, -, -, h⟩ | ⟨hb, b, i, hi, -, hw, h⟩
      · exact .inl h
      · exact .inr (.inr (.inr (.inr (.inr ⟨addr, size, v, rfl, hb, .inl ⟨r, h⟩⟩))))
      · exact .inr (.inr (.inr (.inr (.inr ⟨addr, size, v, rfl, hb, .inr ⟨b, i, hi, hw, h⟩⟩))))
  | answer ans =>
    cases h
    by_cases hp : AnswersPending ans s
    · exact .inr (.inr (.inr (.inl ⟨ans, rfl, hp, hostAnswer_of_pending hp⟩)))
    · exact .inl (hostAnswer_of_not_pending hp)
  | reset =>
    cases h
    exact .inr (.inr (.inl ⟨rfl, rfl⟩))

/-- A step with a host action left runs that action. -/
theorem step_next_cases (h : step s = .next t) :
    (s.script = [] ∧ t = s) ∨
      ∃ a rest, s.script = a :: rest ∧ runAction a { s with script := rest } = .next t := by
  cases hs : s.script with
  | nil =>
    rw [step, takeAction, hs] at h
    cases h
    exact .inl ⟨rfl, rfl⟩
  | cons a rest => exact .inr ⟨a, rest, rfl, step_cons hs ▸ h⟩

end Sys2Proof.Machine
end

