-- ==== Sys2Proof/Laws/PerInstr.lean ====
section
/-! SUPPORT. Statements made of every command, one lemma per constructor. RowMatch: the word of a command matches the row
of spec/30_encoding.md R73 that bears its mnemonic. -/

open Sys2Proof

/-- The word of i has the pattern of i's own row of the opcode table under that row's mask. -/
def Sys2Proof.Laws.RowMatch.Statement (i : Instr) : Prop :=
  ∃ r ∈ opcodeRows, r.mnemonic = i.mnemonic ∧ r.matchesWord (encode i) = true

namespace Sys2Proof.Laws.RowMatch

theorem csum (src : View) : Statement (.csum src) :=
  ⟨⟨"CSUM", 0x00000001, 0xFFFFFEFF⟩, by decide, rfl, by cases src <;> decide⟩

theorem encode (type : Byte) : Statement (.encode type) :=
  ⟨⟨"ENCODE", 0x00000002, 0xFFFF00FF⟩, by decide, rfl,
    beq_iff_eq.2 ((encode_row _).2 (by simp [Sys2Proof.encode]))⟩

theorem patch : Statement .patch :=
  ⟨⟨"PATCH", 0x00000003, 0xFFFFFFFF⟩, by decide, rfl, by decide⟩

theorem decode (src : View) : Statement (.decode src) :=
  ⟨⟨"DECODE", 0x00000004, 0xFFFFFEFF⟩, by decide, rfl, by cases src <;> decide⟩

theorem strip : Statement .strip :=
  ⟨⟨"STRIP", 0x00000005, 0xFFFFFFFF⟩, by decide, rfl, by decide⟩

theorem construct (fam : Family) (plp : Bool) (id : Half) : Statement (.construct fam plp id) := by
  refine ⟨⟨"CONSTRUCT", 0x00000006, 0x0000FCFF⟩, by decide, rfl,
    beq_iff_eq.2 ((construct_row _).2 ⟨opField_packWord _ _ _, rsvField_packWord _ _ _, ?_⟩)⟩
  apply BitVec.eq_of_getLsbD_eq
  intro i hi
  have h := getLsbD_packWord_b id (0#6 ++ (BitVec.ofBool plp ++ fam.bit)) 6#4 (i := 2 + i) (by omega)
  rw [show 8 + (2 + i) = 10 + i by omega] at h
  simp only [Sys2Proof.encode, BitVec.getLsbD_extractLsb', hi, h, decide_true, Bool.true_and,
    BitVec.getLsbD_append]
  simp

theorem send : Statement .send :=
  ⟨⟨"SEND", 0x00000007, 0xFFFFFFFF⟩, by decide, rfl, by decide⟩

theorem recv : Statement .recv :=
  ⟨⟨"RECV", 0x00000008, 0xFFFFFFFF⟩, by decide, rfl, by decide⟩

theorem close : Statement .close :=
  ⟨⟨"CLOSE", 0x00000009, 0xFFFFFFFF⟩, by decide, rfl, by decide⟩

end Sys2Proof.Laws.RowMatch
end

