-- ==== Sys2Proof/Tests/Slice0.lean ====
section
/-! SUPPORT. Tests and witnesses. Every expected value is the spec's own: a word written out from the fields of
spec/30_encoding.md R70 and R73, or a vector of spec/95_test_vectors.md. A witness shows states and operands that meet all
hypotheses of a statement of Certificates/Slice0/Obligations.lean, one for each of its clauses. -/

open Sys2Proof Sys2Proof.Machine

namespace Sys2Proof.Tests

/-! ### Well-formedness (R76) -/

theorem test_encode_type_256_is_refused :
    (AsmLine.encode 256).wellFormed = false ∧ assemble (.encode 256) = none := by decide

theorem test_encode_type_255_is_accepted : assemble (.encode 255) = some 0x0000FF02 := by decide

theorem test_construct_id_65536_is_refused :
    (AsmLine.construct false .v4 65536).wellFormed = false ∧
      assemble (.construct false .v4 65536) = none := by decide

theorem test_construct_id_65535_is_accepted :
    assemble (.construct true .v6 65535) = some 0xFFFF0306 := by decide

theorem test_assembler_words :
    assemble (.csum .rx) = some 0x00000101 ∧ assemble (.decode .rx) = some 0x00000104 ∧
      assemble (.construct false .v4 0x1234) = some 0x12340006 ∧ assemble .close = some 0x00000009 := by
  decide

/-! ### Decoding: words written out field by field, H, B, RSV, OP (R70, R73) -/

theorem test_decode_csum :
    decode (0#16 ++ 0b00000001#8 ++ 0b0000#4 ++ 0b0001#4) = .ok (.csum .rx) ∧
      decode (0#16 ++ 0b00000000#8 ++ 0b0000#4 ++ 0b0001#4) = .ok (.csum .tx) := by decide

theorem test_decode_encode :
    decode (0#16 ++ 0b10000001#8 ++ 0b0000#4 ++ 0b0010#4) = .ok (.encode 129) := by decide

theorem test_decode_patch :
    decode (0#16 ++ 0b00000000#8 ++ 0b0000#4 ++ 0b0011#4) = .ok .patch := by decide

theorem test_decode_decode :
    decode (0#16 ++ 0b00000001#8 ++ 0b0000#4 ++ 0b0100#4) = .ok (.decode .rx) ∧
      decode (0#16 ++ 0b00000000#8 ++ 0b0000#4 ++ 0b0100#4) = .ok (.decode .tx) := by decide

theorem test_decode_strip :
    decode (0#16 ++ 0b00000000#8 ++ 0b0000#4 ++ 0b0101#4) = .ok .strip := by decide

theorem test_decode_construct :
    decode (0b0001001000110100#16 ++ 0b00000010#8 ++ 0b0000#4 ++ 0b0110#4)
        = .ok (.construct .v4 true 0x1234) ∧
      decode (0b1000000000000001#16 ++ 0b00000001#8 ++ 0b0000#4 ++ 0b0110#4)
        = .ok (.construct .v6 false 0x8001) := by decide

theorem test_decode_send :
    decode (0#16 ++ 0b00000000#8 ++ 0b0000#4 ++ 0b0111#4) = .ok .send := by decide

theorem test_decode_recv :
    decode (0#16 ++ 0b00000000#8 ++ 0b0000#4 ++ 0b1000#4) = .ok .recv := by decide

theorem test_decode_close :
    decode (0#16 ++ 0b00000000#8 ++ 0b0000#4 ++ 0b1001#4) = .ok .close := by decide

/-- V80 to V89. -/
theorem test_decode_illegal_words :
    ([0x00000000, 0x0000000A, 0x0000000F, 0x00000011, 0x00000201, 0x00010001, 0x00010003, 0x00000204,
      0x00000406, 0x00010008] : List Word).all (fun w => (decodeTableWord 32 w.toNat).isNone) = true := by
  decide

/-- A word above 32 bits is no command word. -/
theorem test_decodeTableWord_wide : decodeTableWord 40 0x100000007 = none := by decide

/-! ### States -/

/-- Reset, with actions to come. -/
def fresh (script : List HostAction) : State := { State.reset with script := script }

/-- The open session of V41: identifier 0x1234, 8 payload bytes. -/
def session (script : List HostAction) : State :=
  { State.reset with
    status := endedStatus .none .opened
    sock := .held
    id := 0x1234
    plen := 8
    saddr := 0x0A000001
    script := script }

/-- A CONSTRUCT of 8 payload bytes that waits at p. -/
def constructing (p : BusyStep) (script : List HostAction) : State :=
  { State.reset with
    status := { busy := true, done := false, err := false, ecode := .none, phase := .noSession }
    hstep := p
    pendId := 0x1234
    pendPlen := 8
    pendAddr := 0x0A000001
    pendBefore := some { id := 7, plen := 9, addr := 11 }
    script := script }

/-- A SEND of the session that waits for its answer. -/
def sending (script : List HostAction) : State :=
  { session script with
    status := { busy := true, done := false, err := false, ecode := .none, phase := .sending }
    hstep := .sendTx
    txlen := 16 }

/-- A RECV of the session that waits for a datagram. -/
def receiving (script : List HostAction) : State :=
  { session script with
    status := { busy := true, done := false, err := false, ecode := .none, phase := .awaiting }
    hstep := .recvWait }

/-- HDR5, the 20-byte IPv4 header of spec/95_test_vectors.md section 7. -/
def hdr5 : List Byte :=
  [0x45, 0x00, 0x00, 0x24, 0x00, 0x00, 0x00, 0x00, 0x40, 0x01, 0x00, 0x00, 0x0A, 0x00, 0x00, 0x01,
    0x0A, 0x00, 0x00, 0x02]

/-- The 8 header bytes of the reply of V19. -/
def reply : List Byte := [0x00, 0x00, 0xED, 0xCB, 0x12, 0x34, 0x00, 0x00]

/-- The state after an outcome. -/
def stateOf (o : Host.Outcome State Fault Refusal) : Option State :=
  match o with
  | .next t => some t
  | _ => none

theorem session_inv (script : List HostAction) : (session script).Inv := by
  have hb := Config.maxPlen_bounds
  refine ⟨rfl, ?_, .inl rfl, Nat.zero_le _, Nat.zero_le _, ?_, ?_, ?_, ?_, ?_, ?_, ?_, ?_⟩
  · show 8 ≤ Config.maxPlen
    omega
  all_goals simp [session, endedStatus, State.reset, ErrorCode.code]

theorem receiving_inv (script : List HostAction) : (receiving script).Inv := by
  have hb := Config.maxPlen_bounds
  refine ⟨rfl, ?_, .inl rfl, Nat.zero_le _, Nat.zero_le _, ?_, ?_, ?_, ?_, ?_, ?_, ?_, ?_⟩
  · show 8 ≤ Config.maxPlen
    omega
  all_goals simp [receiving, session, State.reset, ErrorCode.code]

theorem sending_inv (script : List HostAction) : (sending script).Inv := by
  have hb := Config.maxPlen_bounds
  refine ⟨rfl, ?_, .inr ⟨?_, ?_⟩, Nat.zero_le _, Nat.zero_le _, ?_, ?_, ?_, ?_, ?_, ?_, ?_, ?_⟩
  · show 8 ≤ Config.maxPlen
    omega
  · show 8 ≤ 16
    omega
  · show 16 ≤ 8 + Config.maxPlen
    omega
  all_goals simp [sending, session, State.reset, ErrorCode.code]

theorem constructing_inv (script : List HostAction) : (constructing .constructSocket script).Inv := by
  have hb := Config.maxPlen_bounds
  refine ⟨rfl, ?_, .inl rfl, Nat.zero_le _, Nat.zero_le _, ?_, ?_, ?_, ?_, ?_, ?_, ?_, ?_⟩
  · show 56 ≤ Config.maxPlen
    omega
  rotate_right
  · intro _
    refine ⟨rfl, ?_⟩
    show 8 ≤ Config.maxPlen
    omega
  all_goals simp [constructing, State.reset, ErrorCode.code]

/-! ### One step per instruction, from the vectors -/

/-- The memory of V20: a message of type 8 with identifier 0x1234 and sequence 1. -/
def v20Mem : Memory := [(0x20000, 8), (0x20004, 0x12), (0x20005, 0x34), (0x20007, 1)]

/-- V1 as a command. -/
theorem test_csum_V1 :
    (stateOf (exec (.csum .tx) { fresh [] with txlen := 16, mem := v20Mem })).map
      (fun t => (t.csr, t.status.word)) = some (0xE5CA, 0x002) := by decide

/-- V19 with OFF = 0: word 1 of the datagram is skipped. -/
theorem test_csum_V19 :
    (stateOf (exec (.csum .rx) { fresh [] with
      rxlen := 36
      mem := Memory.writeBytes [] 0x30000 (hdr5 ++ reply) })).map (fun t => t.csr)
      = some 0x66FB := by decide

/-- V23. -/
theorem test_encode_V23 :
    (stateOf (exec (.encode 255) { fresh [] with
      arg := 0x00010002, plen := 2, mem := [(0x10000, 0xDE), (0x10001, 0xAD)] })).map
      (fun t => (viewSlice .tx t, t.txlen))
      = some ([0xFF, 0x00, 0x00, 0x00, 0x00, 0x01, 0x00, 0x02, 0xDE, 0xAD], 10) := by decide

/-- V24: the placeholder is written again. -/
theorem test_encode_V24 :
    (stateOf (exec (.encode 8) { fresh [] with
      arg := 0x12340001, plen := 8, txlen := 16
      mem := [(0x20000, 8), (0x20002, 0xE5), (0x20003, 0xCA), (0x20004, 0x12), (0x20005, 0x34),
        (0x20007, 1)] })).map (fun t => t.mem) = some v20Mem := by decide

/-- V25. -/
theorem test_patch_V25 :
    (stateOf (exec .patch { fresh [] with txlen := 16, csr := 0xE5CA, mem := v20Mem })).map
      (fun t => t.mem)
      = some [(0x20000, 8), (0x20002, 0xE5), (0x20003, 0xCA), (0x20004, 0x12), (0x20005, 0x34),
        (0x20007, 1)] := by decide

/-- V26. -/
theorem test_patch_V26 :
    (stateOf (exec .patch (fresh []))).map (fun t => (t.status.word, t.mem)) = some (0x046, []) := by
  decide

/-- V32, with a data byte behind it. -/
theorem test_decode_V32 :
    (stateOf (exec (.decode .rx) { fresh [] with
      rxlen := 8
      mem := Memory.writeBytes [] 0x30000 [0x03, 0x01, 0x12, 0x34, 0x56, 0x78, 0x9A, 0xBC] })).map
      (fun t => (t.rtype, t.rcode, t.rcsum, t.rid, t.rseq, t.rdlen))
      = some (3, 1, 0x1234, 0x5678, 0x9ABC, 0) := by decide

/-- V29: seven bytes are malformed, and no reply register is written. -/
theorem test_decode_V29 :
    (stateOf (exec (.decode .rx) { fresh [] with rxlen := 7, rtype := 8, rid := 0x1234 })).map
      (fun t => (t.status.word, t.rtype, t.rid)) = some (0x046, 8, 0x1234) := by decide

/-- V33: the high nibble is ignored. -/
theorem test_strip_V33 :
    (stateOf (exec .strip { fresh [] with rxlen := 36, mem := [(0x30000, 0xF5)] })).map
      (fun t => t.off) = some 20 ∧
    (stateOf (exec .strip { fresh [] with rxlen := 36, mem := [(0x30000, 0x4F)] })).map
      (fun t => t.off) = some 60 := by decide

/-- V34. -/
theorem test_strip_V34 :
    (stateOf (exec .strip { fresh [] with off := 7 })).map (fun t => (t.status.word, t.off))
      = some (0x046, 7) := by decide

/-- V40: the issue step. -/
theorem test_construct_V40 :
    (stateOf (exec (.construct .v4 false 0x1234) { fresh [] with dest := 0x0A000001 })).map
      (fun t => (t.status.word, t.outbox, t.pendId, t.pendPlen))
      = some (0x001, [.resolve 0x0A000001 0], 0x1234, 56) := by decide

/-- V42: IPv6 fails at once, with no request. -/
theorem test_construct_V42 :
    (stateOf (exec (.construct .v6 false 0x1234) (fresh []))).map
      (fun t => (t.status.word, t.outbox)) = some (0x016, []) := by decide

/-- V50: the message that is handed over. -/
theorem test_send_V50 :
    (stateOf (exec .send (session []))).map (fun t => (t.status.phase, t.csr, t.outbox))
      = some (.sending, 0xE5CB,
        [.sendto [0x08, 0, 0xE5, 0xCB, 0x12, 0x34, 0, 0, 0, 0, 0, 0, 0, 0, 0, 0] 0x0A000001]) := by
  decide

/-- V54: the last of 65536 sends wraps SEQ. -/
theorem test_send_V54 :
    (stateOf (step { sending [.answer (.sendtoOk 16)] with seq := 0xFFFF })).map
      (fun t => (t.seq, t.txcnt, t.status.word)) = some (0, 16, 0x102) := by decide

/-- P2, line 3: the matching datagram is decoded. -/
theorem test_recv_P2 :
    (stateOf (step (receiving [.answer (.recvfromOk (hdr5 ++ reply ++ List.replicate 8 0) 7)]))).map
      (fun t => (t.rxlen, t.off, t.rtotlen, t.rdlen, t.rcsum, t.rsrc, t.status.word))
      = some (36, 20, 36, 8, 0xEDCB, 7, 0x102) := by decide

/-- V68: a short datagram of another identifier is discarded and the next one asked for. -/
theorem test_recv_V68 :
    (stateOf (step (receiving
        [.answer (.recvfromOk (hdr5 ++ [0x00, 0x00, 0xED, 0xCB, 0x99, 0x99]) 7)]))).map
      (fun t => (t.status.word, t.outbox)) = some (0x301, [.recvfrom 76]) := by decide

/-- V70. -/
theorem test_close_V70 :
    (stateOf (exec .close (session []))).map (fun t => (t.status.word, t.id, t.outbox))
      = some (0x002, 0x1234, [.close]) := by decide

/-- V71. -/
theorem test_close_V71 :
    (stateOf (exec .close (fresh []))).map (fun t => t.status.word) = some 0x066 := by decide

/-- V82: an illegal word in an open session. -/
theorem test_illegal_word :
    (stateOf (step (session [.write 0 4 0x0000000F]))).map (fun t => (t.status.word, t.cmd, t.sock))
      = some (0x156, 0x0000000F, .held) := by decide

/-- V91: reset in a busy RECV, and a late answer. -/
theorem test_reset_V91 :
    (stateOf (step (receiving [.reset]))).map (fun t => (t.status.word, t.sock, t.plen))
      = some (0, .none, 56) := by decide

/-! ### Witnesses: encoding and the host port -/

theorem witness_DecodeOfEncodeIsTheCommand :
    (Instr.construct .v6 true 0xFFFF).wellFormed = true ∧ (Instr.csum .rx).wellFormed = true := by decide

theorem witness_EncodeOfDecodeIsTheWord :
    decode 0xFFFF0306 = .ok (.construct .v6 true 0xFFFF) ∧ decode 0x00000101 = .ok (.csum .rx) := by
  decide

/-- A legal word that matches one row, and an illegal one. -/
theorem witness_DecodableWordsAreTheTableRows :
    decode 0x0000FF02 = .ok (.encode 255) ∧
      (⟨"ENCODE", 0x00000002, 0xFFFF00FF⟩ : OpcodeRow) ∈ opcodeRows ∧
      (0x0000FF02 : Word) &&& 0xFFFF00FF = 0x00000002 ∧ legalWord 0x00000011 = false := by decide

theorem witness_IllegalWordCompletesWithIllegalCommand :
    Clean (session [.write 0x00000 4 0x00000406]) ∧
      (session [.write 0x00000 4 0x00000406]).status.busy = false ∧
      (session [.write 0x00000 4 0x00000406]).script = .write 0x00000 4 0x00000406 :: [] ∧
      ∀ r ∈ opcodeRows, (0x00000406 : Word) &&& r.mask ≠ r.pattern :=
  ⟨rfl, rfl, rfl, by decide⟩

theorem witness_StepRunsTheDecodedCommand :
    Clean (fresh [.write 0x00000 4 0x12340206]) ∧
      (fresh [.write 0x00000 4 0x12340206]).status.busy = false ∧
      (fresh [.write 0x00000 4 0x12340206]).script = .write 0x00000 4 0x12340206 :: [] ∧
      decode 0x12340206 = .ok (.construct .v4 true 0x1234) :=
  ⟨rfl, rfl, rfl, by decide⟩

theorem witness_FetchWordRunsNext :
    Clean State.reset ∧ State.reset.status.busy = false ∧ 0xFFFF0306 < 2 ^ 32 ∧
      decode (BitVec.ofNat 32 0xFFFF0306) = .ok (.construct .v6 true 0xFFFF) :=
  ⟨rfl, rfl, by decide, by decide⟩

theorem witness_NoHostActionChangesNothing : (receiving []).script = [] := rfl

/-- A reset of a busy block, and a late answer. -/
theorem witness_HostResetGivesTheResetValues :
    (receiving [.reset, .answer .recvfromFail]).script = .reset :: [.answer .recvfromFail] := rfl

/-- A register, and the last byte of a buffer. -/
theorem witness_ReadsReturnTheValueAndChangeNothing :
    (Clean (fresh [rd .saddr]) ∧ (fresh [rd .saddr]).script = rd .saddr :: []) ∧
      ∃ i, i + 1 = Buffer.rdata.size ∧ i < Buffer.rdata.size ∧ Clean (fresh [rdb .rdata i]) ∧
        (fresh [rdb .rdata i]).script = rdb .rdata i :: [] := by
  have hb := Config.maxPlen_bounds
  refine ⟨⟨rfl, rfl⟩, Buffer.rdata.size - 1, ?_, ?_, rfl, rfl⟩ <;> rw [Buffer.size_rdata] <;> omega

/-- Each register; RXLEN and PLEN at the largest value they take. -/
theorem witness_RegisterWritesStoreTheTruncatedValue :
    (fresh [wr .arg 0xFFFFFFFF]).script = wr .arg 0xFFFFFFFF :: [] ∧
      (fresh [wr .dest 0xFFFFFFFF]).script = wr .dest 0xFFFFFFFF :: [] ∧
      (fresh [wr .off 0xFFFFFFFF]).script = wr .off 0xFFFFFFFF :: [] ∧
      (∃ v : Word, (fresh [wr .rxlen v]).script = wr .rxlen v :: [] ∧
        v.toNat = Buffer.rxbuf.size) ∧
      (∃ v : Word, (fresh [wr .plen v]).script = wr .plen v :: [] ∧
        v.toNat = Config.maxPlen ∧ (fresh [wr .plen v]).status.phase = .noSession) ∧
      (∀ l, Clean (fresh l) ∧ (fresh l).status.busy = false) := by
  have hb := Config.maxPlen_bounds
  refine ⟨rfl, rfl, rfl, ⟨BitVec.ofNat 32 (Config.maxPlen + 68), rfl, ?_⟩,
    ⟨BitVec.ofNat 32 Config.maxPlen, rfl, ?_, rfl⟩, fun _ => ⟨rfl, rfl⟩⟩
  · rw [BitVec.toNat_ofNat, Buffer.size_rxbuf]
    omega
  · rw [BitVec.toNat_ofNat]
    omega

/-- The last byte of each writable buffer. -/
theorem witness_ByteWritesStoreOneByte :
    (∃ i, i + 1 = Buffer.payload.size ∧ Clean (fresh [wrb .payload i 0xAA]) ∧
      (fresh [wrb .payload i 0xAA]).status.busy = false ∧
      (fresh [wrb .payload i 0xAA]).script = wrb .payload i 0xAA :: []) ∧
    (∃ i, i + 1 = Buffer.rxbuf.size ∧ Clean (fresh [wrb .rxbuf i 0]) ∧
      (fresh [wrb .rxbuf i 0]).status.busy = false ∧
      (fresh [wrb .rxbuf i 0]).script = wrb .rxbuf i 0 :: []) := by
  have hb := Config.maxPlen_bounds
  refine ⟨⟨Buffer.payload.size - 1, ?_, rfl, rfl, rfl⟩, ⟨Buffer.rxbuf.size - 1, ?_, rfl, rfl, rfl⟩⟩
  · rw [Buffer.size_payload]
    omega
  · rw [Buffer.size_rxbuf]
    omega

theorem witness_BusyBlockAnswersReadsAndRefusesWrites :
    (∀ l, Clean (receiving l) ∧ (receiving l).status.busy = true) ∧
      (receiving [rd .status]).script = rd .status :: [] ∧
      (0 < Buffer.txbuf.size ∧ (receiving [rdb .txbuf 0]).script = rdb .txbuf 0 :: []) ∧
      (receiving [issueCommand .close]).script = .write 0x00000 4 0x00000009 :: [] :=
  ⟨fun _ => ⟨rfl, rfl⟩, rfl, ⟨by rw [Buffer.size_txbuf]; omega, rfl⟩, by decide⟩

/-- One misuse of each kind that R160 lists, and an action that is none. -/
theorem witness_MisuseIsRecordedAndChangesNoBlockState :
    Misuse (.read 0x00058 4) (fresh []) ∧ Misuse (.read 0x00000 1) (fresh []) ∧
      Misuse (wr .arg 0) (receiving []) ∧ Misuse (wr .status 0) (fresh []) ∧
      Misuse (wrb .txbuf 0 0) (fresh []) ∧ Misuse (wr .plen 8) (session []) ∧
      Misuse (wr .plen (BitVec.ofNat 32 (Config.maxPlen + 1))) (fresh []) ∧
      Misuse (wr .rxlen (BitVec.ofNat 32 (Config.maxPlen + 69))) (fresh []) ∧
      Misuse (.answer .socketOk) (fresh []) ∧ ¬ Misuse (.answer .recvfromFail) (receiving []) ∧
      (∀ a, (fresh [a]).script = a :: []) := by
  have hb := Config.maxPlen_bounds
  have hno : ∀ (addr : HostAddr) (size : Nat), addr.toNat < 0x10000 →
      (∀ r : Reg, addr.toNat = r.offset → size ≠ 4) → ¬ AccessExists addr size := by
    rintro addr size h h4 (⟨hs, r, hr⟩ | ⟨-, b, i, -, ha⟩)
    · exact h4 r hr hs
    · have : 0x10000 ≤ b.base := by cases b <;> decide
      omega
  refine ⟨hno _ _ (by decide) ?_, hno _ _ (by decide) (fun _ _ => by decide), .inl rfl,
    .inr (.inr (.inl ⟨.status, rfl, by simp [HostWritableReg]⟩)),
    .inr (.inr (.inr (.inl ⟨.txbuf, .inl rfl, by decide, by decide⟩))),
    .inr (.inr (.inr (.inr (.inl ⟨rfl, .inl (by decide)⟩)))),
    .inr (.inr (.inr (.inr (.inl ⟨rfl, .inr ?_⟩)))),
    .inr (.inr (.inr (.inr (.inr ⟨rfl, ?_⟩)))), ?_, ?_, fun _ => rfl⟩
  · intro r hr
    cases r <;> exact absurd hr (by decide)
  · rw [BitVec.toNat_ofNat]
    omega
  · rw [BitVec.toNat_ofNat, Buffer.size_rxbuf]
    omega
  · intro h
    exact absurd (show (fresh []).hstep = .constructSocket from h) (by decide)
  · exact fun h => h rfl

theorem witness_ViolationRecordIsNeverCleared :
    ∃ t, step (fresh [.answer .socketOk]) = .next t ∧ t.violations = [.answer .socketOk] :=
  ⟨_, rfl, rfl⟩

/-! ### Witnesses: invariants and STATUS -/

/-- An open session about to receive a host write of a register. -/
theorem witness_StepKeepsTheInvariant :
    Clean (session [wr .off 7]) ∧ (session [wr .off 7]).Inv ∧
      ∃ t, step (session [wr .off 7]) = .next t ∧ t.off = 7 :=
  ⟨rfl, session_inv _, _, rfl, by decide⟩

/-- The same with a payload byte in memory, and an ENCODE that copies it. -/
theorem witness_StepKeepsMemoryInsideTheBuffers :
    ∃ s t, s = { session [issueCommand (.encode 8)] with mem := [(0x10000, 0xAA)] } ∧ Clean s ∧
      s.Inv ∧ s.MemInv ∧ step s = .next t ∧
      t.mem = [(0x10000, 0xAA), (0x20000, 0x08), (0x20008, 0xAA)] := by
  have hb := Config.maxPlen_bounds
  have hi := session_inv [issueCommand (.encode 8)]
  refine ⟨_, _, rfl, rfl,
    ⟨hi.1, hi.2, hi.3, hi.4, hi.5, hi.6, hi.7, hi.8, hi.9, hi.10, hi.11, hi.12, hi.13⟩,
    ⟨by decide, ?_⟩, rfl, by decide⟩
  intro c hc
  refine ⟨.payload, 0, by rw [Buffer.size_payload]; omega, ?_⟩
  rw [List.mem_singleton.1 hc]
  rfl

/-- Each of the commands without a host request. -/
theorem witness_HostlessCommandsCompleteAtIssue :
    Clean (session []) ∧ (∃ v, Instr.csum .rx = .csum v) ∧ (∃ ty, Instr.encode 8 = .encode ty) ∧
      (∃ v, Instr.decode .tx = .decode v) :=
  ⟨rfl, ⟨_, rfl⟩, ⟨_, rfl⟩, ⟨_, rfl⟩⟩

/-- SEND, PATCH and CONSTRUCT each fail at issue somewhere. -/
theorem witness_FailingIssueWritesOnlyStatus :
    (Clean (fresh []) ∧ (fresh []).status.err = false ∧
      ∃ t, exec .send (fresh []) = .next t ∧ t.status.err = true) ∧
    (∃ t, exec .patch (fresh []) = .next t ∧ t.status.err = true) ∧
    (∃ t, exec (.construct .v6 true 1) (fresh []) = .next t ∧ t.status.err = true) :=
  ⟨⟨rfl, rfl, _, rfl, rfl⟩, ⟨_, rfl, rfl⟩, ⟨_, rfl, rfl⟩⟩

/-! ### Witnesses: the checksum -/

/-- V11, with two folds, and the longest sequence (V18). -/
theorem witness_ChecksumFollowsThePseudocode :
    ([0xFF, 0xFF, 0, 0, 0xFF, 0xFF, 0, 1] : List Byte).length ≤ 65535 ∧
      (List.replicate 65535 (0xFF : Byte)).length ≤ 65535 :=
  ⟨by decide, by rw [List.length_replicate]⟩

/-- A sum of 0 and a sum above 0. -/
theorem witness_ChecksumIsTheComplementOfTheResidue :
    countedSum [] = 0 ∧ 0 < countedSum [0xFF, 0xFF, 0, 0, 0, 1] ∧
      ([0xFF, 0xFF, 0, 0, 0, 1] : List Byte).length ≤ 65535 := by decide

/-- V16. -/
theorem witness_FullSumOfACheckedMessageIsAllOnes :
    be16 0xE5 0xCA = checksum (0x08 :: 0x00 :: 0xE5 :: 0xCA :: [0x12, 0x34, 0x00, 0x01]) ∧
      ([0x12, 0x34, 0x00, 0x01] : List Byte).length + 4 ≤ 65535 := by decide

/-- V6. -/
theorem witness_TrailingOddByteIsDiscarded : ([0x12, 0x34] : List Byte).length % 2 = 0 := by decide

/-- V15. -/
theorem witness_PaddingAgreesExactlyOnAZeroTail :
    ([0x08, 0, 0, 0, 0x12, 0x34, 0, 5, 0xAA, 0xBB] : List Byte).length % 2 = 0 ∧
      ([0x08, 0, 0, 0, 0x12, 0x34, 0, 5, 0xAA, 0xBB] : List Byte).length + 1 ≤ 65535 := by decide

/-- V17. -/
theorem witness_ValidationConventionsDifferInOneCase :
    ([0xFF, 0xFF, 0, 0] : List Byte).length + 4 ≤ 65535 := by decide

/-- An empty view: TXLEN = 0, and OFF at RXLEN. -/
theorem witness_CsumWritesTheChecksumOfItsView :
    Clean (fresh []) ∧ viewSlice .tx (fresh []) = [] ∧
      viewSlice .rx { fresh [] with off := 36, rxlen := 36 } = [] :=
  ⟨rfl, by decide, by decide⟩

/-! ### Witnesses: the codec -/

/-- An empty payload, and the longest. -/
theorem witness_EncodeBuildsTheMessage :
    Clean { fresh [] with plen := 0 } ∧ (0 : Half).toNat ≤ Config.maxPlen ∧
      (BitVec.ofNat 16 Config.maxPlen).toNat = Config.maxPlen := by
  have hb := Config.maxPlen_bounds
  refine ⟨rfl, Nat.zero_le _, ?_⟩
  rw [BitVec.toNat_ofNat]
  omega

theorem witness_PatchWritesTheChecksumField :
    Clean (fresh []) ∧ 8 ≤ ({ fresh [] with txlen := 8 } : State).txlen.toNat ∧
      ({ fresh [] with txlen := 7 } : State).txlen.toNat < 8 :=
  ⟨rfl, by decide, by decide⟩

theorem witness_DecodeParsesTheView :
    Clean { fresh [] with rxlen := 8 } ∧ 8 ≤ (viewSlice .rx { fresh [] with rxlen := 8 }).length :=
  ⟨rfl, by decide⟩

theorem witness_DecodeOfAShortViewFails :
    Clean { fresh [] with rxlen := 27, off := 20 } ∧
      (viewSlice .rx { fresh [] with rxlen := 27, off := 20 }).length < 8 :=
  ⟨rfl, by decide⟩

theorem witness_StripComputesTheOffset :
    Clean (fresh []) ∧ ({ fresh [] with rxlen := 1 } : State).rxlen ≠ 0 ∧ (fresh []).rxlen = 0 :=
  ⟨rfl, by decide, rfl⟩

/-- The reply of V19 behind a header without options. -/
theorem witness_StripLocatesTheMessage :
    ∃ s : State, s = { fresh [] with rxlen := 28, mem := Memory.writeBytes [] 0x30000 (hdr5 ++ reply) } ∧
      Clean s ∧ 8 ≤ reply.length ∧
      s.rxlen.toNat = 4 * ((s.mem.read 0x30000).toNat % 16) + reply.length ∧
      ∀ i < reply.length,
        s.mem.read (0x30000 + 4 * ((s.mem.read 0x30000).toNat % 16) + i) = reply.getD i 0 :=
  ⟨_, rfl, rfl, by decide, by decide, by decide⟩

theorem witness_EncodeThenDecodeRecoversTheMessage :
    (∀ l, Clean (fresh l) ∧ (fresh l).status.busy = false ∧ (fresh l).plen.toNat ≤ Config.maxPlen) ∧
      (∃ l, (fresh l).script = issueCommand (.encode 8) :: issueCommand (.decode .tx) :: []) ∧
      (∃ l, (fresh l).script = issueCommand (.encode 8) :: issueCommand (.csum .tx) ::
        issueCommand .patch :: issueCommand (.decode .tx) :: []) :=
  ⟨fun _ => ⟨rfl, rfl, Config.maxPlen_bounds.1⟩, ⟨_, rfl⟩, ⟨_, rfl⟩⟩

/-! ### Witnesses: the session -/

/-- An open session; IPv6; a payload length just above MAX_PLEN, and MAX_PLEN itself. -/
theorem witness_ConstructIssueStep :
    (∀ l, Clean (fresh l) ∧ (fresh l).status.phase = .noSession) ∧
      (session []).status.phase ≠ .noSession ∧
      (∃ arg : Word, Config.maxPlen < arg.toNat % 65536 ∧ (arg.toNat % 65536) = Config.maxPlen + 1) ∧
      (∃ arg : Word, arg.toNat % 65536 = Config.maxPlen) := by
  have hb := Config.maxPlen_bounds
  refine ⟨fun _ => ⟨rfl, rfl⟩, by decide, ⟨BitVec.ofNat 32 (Config.maxPlen + 1), ?_, ?_⟩,
    ⟨BitVec.ofNat 32 Config.maxPlen, ?_⟩⟩ <;> rw [BitVec.toNat_ofNat] <;> omega

theorem witness_ConstructAnswerSteps :
    (∀ p l, Clean (constructing p l)) ∧
      (∀ p l, (constructing p l).pendBefore = some { id := 7, plen := 9, addr := 11 } ∧
        (constructing p l).pendId = 0x1234) ∧
      ((constructing .constructResolve [.answer .resolveFail]).hstep = .constructResolve ∧
        (constructing .constructResolve [.answer .resolveFail]).script = .answer .resolveFail :: []) ∧
      ((constructing .constructResolve [.answer (.resolveOk 7)]).hstep = .constructResolve ∧
        (constructing .constructResolve [.answer (.resolveOk 7)]).script
          = .answer (.resolveOk 7) :: []) ∧
      ((constructing .constructSocket [.answer .socketFail]).hstep = .constructSocket ∧
        (constructing .constructSocket [.answer .socketFail]).script = .answer .socketFail :: []) ∧
      ((constructing .constructSocket [.answer .socketOk]).hstep = .constructSocket ∧
        (constructing .constructSocket [.answer .socketOk]).script = .answer .socketOk :: []) :=
  ⟨fun _ _ => rfl, fun _ _ => ⟨rfl, rfl⟩, ⟨rfl, rfl⟩, ⟨rfl, rfl⟩, ⟨rfl, rfl⟩, ⟨rfl, rfl⟩⟩

/-- With ARG at MAX_PLEN. -/
theorem witness_ConstructOpensTheSession :
    ∃ s : State, Clean s ∧ s.status.busy = false ∧ s.status.phase = .noSession ∧
      s.arg.toNat % 65536 = Config.maxPlen ∧
      s.script = issueCommand (.construct .v4 true 0x1234) :: .answer (.resolveOk 7) ::
        .answer .socketOk :: [] := by
  have hb := Config.maxPlen_bounds
  refine ⟨{ State.reset with
    arg := BitVec.ofNat 32 Config.maxPlen
    script := issueCommand (.construct .v4 true 0x1234) :: .answer (.resolveOk 7) ::
      .answer .socketOk :: [] }, rfl, rfl, rfl, ?_, rfl⟩
  show (BitVec.ofNat 32 Config.maxPlen).toNat % 65536 = _
  rw [BitVec.toNat_ofNat]
  omega

/-- After a session that was closed, so that the state is not the one of reset. -/
def closed (script : List HostAction) : State :=
  { session script with
    status := endedStatus .none .noSession
    sock := .none
    pendId := 0x1234
    pendPlen := 8
    pendAddr := 0x0A000001 }

theorem closed_inv (script : List HostAction) : (closed script).Inv := by
  have hb := Config.maxPlen_bounds
  refine ⟨rfl, ?_, .inl rfl, Nat.zero_le _, Nat.zero_le _, ?_, ?_, ?_, ?_, ?_, ?_, ?_, ?_⟩
  · show 8 ≤ Config.maxPlen
    omega
  all_goals simp [closed, session, endedStatus, State.reset, ErrorCode.code]

theorem witness_FailedConstructLeavesNothing :
    (∀ l, Clean (closed l) ∧ (closed l).Inv ∧ (closed l).status.busy = false ∧
      (closed l).status.phase = .noSession ∧ (closed l).arg.toNat % 65536 ≤ Config.maxPlen) ∧
    (∃ l, (closed l).script = issueCommand (.construct .v4 true 1) :: .answer .resolveFail :: []) ∧
    (∃ l, (closed l).script = issueCommand (.construct .v4 true 1) :: .answer (.resolveOk 7) ::
      .answer .socketFail :: []) :=
  ⟨fun _ => ⟨rfl, closed_inv _, rfl, rfl, Nat.zero_le _⟩, ⟨_, rfl⟩, ⟨_, rfl⟩⟩

theorem witness_SendIssueStep :
    (Clean (fresh []) ∧ (fresh []).status.phase ≠ .opened) ∧
      (Clean (session []) ∧ (session []).status.phase = .opened ∧
        (session []).plen.toNat ≤ Config.maxPlen) :=
  ⟨⟨rfl, by decide⟩, rfl, rfl, (session_inv []).plen_le⟩

/-- A failed transmit, and counts of 0 and of the whole message. -/
theorem witness_SendAnswerStep :
    (∀ l, Clean (sending l) ∧ (sending l).hstep = .sendTx) ∧
      (sending [.answer .sendtoFail]).script = .answer .sendtoFail :: [] ∧
      (0 ≤ (sending [.answer (.sendtoOk 0)]).txlen.toNat ∧
        (sending [.answer (.sendtoOk 0)]).script = .answer (.sendtoOk 0) :: []) ∧
      (16 ≤ (sending [.answer (.sendtoOk 16)]).txlen.toNat ∧
        (sending [.answer (.sendtoOk 16)]).script = .answer (.sendtoOk 16) :: []) :=
  ⟨fun _ => ⟨rfl, rfl⟩, rfl, ⟨by decide, rfl⟩, by decide, rfl⟩

/-- Two sends, one of them short (V55). -/
theorem witness_SequenceCountsTheSends :
    ∃ l, Clean (session l) ∧ (session l).status.busy = false ∧ (session l).status.phase = .opened ∧
      (session l).plen.toNat ≤ Config.maxPlen ∧
      (∀ n ∈ [16, 3], n ≤ 8 + (session l).plen.toNat) ∧
      (session l).script =
        (([16, 3] : List Nat).flatMap fun n => [issueCommand .send, .answer (.sendtoOk n)]) ++ [] :=
  ⟨_, rfl, rfl, rfl, (session_inv _).plen_le, by decide, rfl⟩

theorem witness_RecvIssueStep :
    (Clean (fresh []) ∧ (fresh []).status.phase ≠ .opened) ∧
      (Clean (session []) ∧ (session []).status.phase = .opened) :=
  ⟨⟨rfl, by decide⟩, rfl, rfl⟩

theorem witness_RecvReadFailureKeepsTheSession :
    Clean (receiving [.answer .recvfromFail]) ∧
      (receiving [.answer .recvfromFail]).hstep = .recvWait ∧
      (receiving [.answer .recvfromFail]).script = .answer .recvfromFail :: [] :=
  ⟨rfl, rfl, rfl⟩

/-- V68. -/
theorem witness_OtherIdentifiersAreDiscarded :
    ∃ d l, d = hdr5 ++ [0x00, 0x00, 0xED, 0xCB, 0x99, 0x99] ∧ Clean (receiving l) ∧
      (receiving l).Inv ∧ (receiving l).hstep = .recvWait ∧
      (receiving l).script = .answer (.recvfromOk d 7) :: [] ∧
      HasId d (68 + (receiving l).plen.toNat) ∧ declaredId d ≠ (receiving l).id :=
  ⟨_, _, rfl, rfl, receiving_inv _, rfl, rfl, ⟨by decide, by decide⟩, by decide⟩

/-- A datagram whose message is a bare header. -/
theorem witness_MatchingDatagramIsDecoded :
    ∃ l, Clean (receiving l) ∧ (receiving l).Inv ∧ (receiving l).hstep = .recvWait ∧
      (receiving l).script = .answer (.recvfromOk (hdr5 ++ reply) 7) :: [] ∧ hdr5 ++ reply ≠ [] ∧
      declaredHeader (hdr5 ++ reply) + 8 = min (hdr5 ++ reply).length (68 + (receiving l).plen.toNat) ∧
      declaredId (hdr5 ++ reply) = (receiving l).id :=
  ⟨_, rfl, receiving_inv _, rfl, rfl, by decide, by decide, by decide⟩

/-- V62, V63 and V64: empty, without an identifier, and without a whole header. -/
theorem witness_ShortDatagramsEndRecv :
    (∀ l, Clean (receiving l) ∧ (receiving l).Inv ∧ (receiving l).hstep = .recvWait) ∧
      (∃ l, (receiving l).script = .answer (.recvfromOk [] 7) :: [] ∧
        ¬ HasId [] (68 + (receiving l).plen.toNat)) ∧
      (∃ l, (receiving l).script
          = .answer (.recvfromOk (hdr5 ++ [0x00, 0x00, 0xED, 0xCB, 0x12]) 7) :: [] ∧
        ¬ HasId (hdr5 ++ [0x00, 0x00, 0xED, 0xCB, 0x12]) (68 + (receiving l).plen.toNat)) ∧
      (∃ d l, d = hdr5 ++ [0x00, 0x00, 0xED, 0xCB, 0x12, 0x34, 0x00] ∧
        (receiving l).script = .answer (.recvfromOk d 7) :: [] ∧ declaredId d = (receiving l).id ∧
        min d.length (68 + (receiving l).plen.toNat) < declaredHeader d + 8) := by
  refine ⟨fun _ => ⟨rfl, receiving_inv _, rfl⟩, ⟨_, rfl, fun h => h.1 rfl⟩, ⟨_, rfl, ?_⟩,
    _, _, rfl, rfl, by decide, by decide⟩
  rintro ⟨-, h⟩
  exact absurd h (by decide)

/-- P2: one datagram of another identifier, then the reply. -/
theorem witness_RecvCompletesOnTheFirstMatch :
    ∃ o l, o = hdr5 ++ [0x00, 0x00, 0x66, 0x66, 0x99, 0x99, 0x00, 0x00] ∧ Clean (session l) ∧
      (session l).Inv ∧ (session l).status.busy = false ∧ (session l).status.phase = .opened ∧
      (∀ p ∈ [(o, (7 : Word))], HasId p.1 (68 + (session l).plen.toNat) ∧
        declaredId p.1 ≠ (session l).id) ∧
      hdr5 ++ reply ≠ [] ∧
      declaredHeader (hdr5 ++ reply) + 8 ≤ min (hdr5 ++ reply).length (68 + (session l).plen.toNat) ∧
      declaredId (hdr5 ++ reply) = (session l).id ∧
      (session l).script = issueCommand .recv ::
        (([(o, (7 : Word))].map fun o => .answer (.recvfromOk o.1 o.2)) ++
          .answer (.recvfromOk (hdr5 ++ reply) 7) :: []) := by
  refine ⟨_, _, rfl, rfl, session_inv _, rfl, rfl, ?_, by decide, by decide, by decide, rfl⟩
  intro p hp
  rw [List.mem_singleton.1 hp]
  exact ⟨⟨by decide, by decide⟩, by decide⟩

theorem witness_CloseEndsTheSession :
    (Clean (session []) ∧ (session []).status.phase = .opened) ∧
      (Clean (sending []) ∧ (sending []).status.phase ≠ .opened) :=
  ⟨⟨rfl, rfl⟩, rfl, by decide⟩

/-! ### Witnesses: the whole machine -/

/-- Each way PHASE can change. -/
theorem witness_PhaseFollowsTheTransitionTable :
    (∀ l, Clean (session l) ∧ (session l).Inv ∧ Clean (sending l) ∧ (sending l).Inv ∧
      Clean (receiving l) ∧ (receiving l).Inv ∧ Clean (constructing .constructSocket l) ∧
      (constructing .constructSocket l).Inv) ∧
    (∃ t, step (session [.reset]) = .next t ∧ t.status.phase = .noSession) ∧
    (∃ t, step (constructing .constructSocket [.answer .socketOk]) = .next t ∧
      t.status.phase = .opened) ∧
    (∃ t, step (session [issueCommand .send]) = .next t ∧ t.status.phase = .sending) ∧
    (∃ t, step (sending [.answer (.sendtoOk 16)]) = .next t ∧ t.status.phase = .opened) ∧
    (∃ t, step (session [issueCommand .recv]) = .next t ∧ t.status.phase = .awaiting) ∧
    (∃ t, step (receiving [.answer .recvfromFail]) = .next t ∧ t.status.phase = .opened) ∧
    (∃ t, step (session [issueCommand .close]) = .next t ∧ t.status.phase = .noSession) :=
  ⟨fun _ => ⟨rfl, session_inv _, rfl, sending_inv _, rfl, receiving_inv _, rfl, constructing_inv _⟩,
    ⟨_, rfl, rfl⟩, ⟨_, rfl, rfl⟩, ⟨_, rfl, rfl⟩, ⟨_, rfl, rfl⟩, ⟨_, rfl, rfl⟩, ⟨_, rfl, rfl⟩,
    ⟨_, rfl, rfl⟩⟩

/-- A successful CONSTRUCT, which writes ID, and a step of an open session that stays one. -/
theorem witness_SessionRegistersAreConstant :
    (Clean (constructing .constructSocket [.answer .socketOk]) ∧
      (constructing .constructSocket [.answer .socketOk]).Inv ∧
      ∃ t, step (constructing .constructSocket [.answer .socketOk]) = .next t ∧
        t.id ≠ (constructing .constructSocket [.answer .socketOk]).id) ∧
    (Clean (session [wr .arg 1]) ∧ (session [wr .arg 1]).Inv ∧
      (session [wr .arg 1]).status.phase ≠ .noSession ∧
      ∃ t, step (session [wr .arg 1]) = .next t ∧ t.status.phase ≠ .noSession) :=
  ⟨⟨rfl, constructing_inv _, _, rfl, by decide⟩, rfl, session_inv _, by decide, _, rfl, by decide⟩

/-- A successful SEND, which writes SEQ. -/
theorem witness_SequenceIsWrittenOnlyBySendAndConstruct :
    Clean (sending [.answer (.sendtoOk 16)]) ∧ (sending [.answer (.sendtoOk 16)]).Inv ∧
      ∃ t, step (sending [.answer (.sendtoOk 16)]) = .next t ∧ t.seq = 1 :=
  ⟨rfl, sending_inv _, _, rfl, by decide⟩

/-- A failing DECODE: done, with an error. -/
theorem witness_RepliesAreWrittenOnlyBySuccess :
    ∃ s t, s = session [issueCommand (.decode .tx)] ∧ Clean s ∧ s.Inv ∧
      s.script = issueCommand (.decode .tx) :: [] ∧ step s = .next t ∧
      issueCommand (.decode .tx) ≠ .reset ∧ ¬ (t.status.done = true ∧ t.status.err = false) :=
  ⟨_, _, rfl, rfl, session_inv _, rfl, rfl, by decide, by decide⟩

/-- A failing RECV, and a failing SEND. -/
theorem witness_ResultRegistersAreWrittenOnlyBySuccess :
    (∃ t, Clean (receiving [.answer .recvfromFail]) ∧ (receiving [.answer .recvfromFail]).Inv ∧
      step (receiving [.answer .recvfromFail]) = .next t ∧
      ¬ (t.status.done = true ∧ t.status.err = false)) ∧
    (∃ t, Clean (sending [.answer .sendtoFail]) ∧ (sending [.answer .sendtoFail]).Inv ∧
      step (sending [.answer .sendtoFail]) = .next t ∧
      ¬ (t.status.done = true ∧ t.status.err = false)) :=
  ⟨⟨_, rfl, receiving_inv _, rfl, by decide⟩, ⟨_, rfl, sending_inv _, rfl, by decide⟩⟩

/-- A step that makes a request. -/
theorem witness_AtMostOneRequestIsPending :
    Clean (session [issueCommand .recv]) ∧ (session [issueCommand .recv]).Inv ∧
      ∃ t, step (session [issueCommand .recv]) = .next t ∧ t.outbox = [.recvfrom 76] :=
  ⟨rfl, session_inv _, _, rfl, by decide⟩

/-- Two instances. -/
theorem witness_InstancesShareNothing :
    (∀ s ∈ [fresh [], session []], Clean s) ∧ [fresh [], session []][1]? = some (session []) := by
  refine ⟨?_, rfl⟩
  intro s hs
  rcases List.mem_pair.1 hs with rfl | rfl <;> rfl

end Sys2Proof.Tests
end

section
/-! Every step answers a next state, and what a step of one instance does to a list of instances (R19). -/

namespace Sys2Proof.Machine

/-! ### No step stops -/

/-- No command's issue step stops: each of its outcomes is a next state (R157). -/
theorem exists_exec_eq_next (i : Instr) (s : State) : ∃ t, exec i s = .next t := by
  cases i with
  | csum v => exact ⟨_, exec_csum v s⟩
  | encode ty => exact ⟨_, exec_encode ty s⟩
  | patch =>
    rcases Nat.lt_or_ge s.txlen.toNat 8 with hl | hl
    · exact ⟨_, exec_patch_short hl⟩
    · exact ⟨_, exec_patch hl⟩
  | decode v =>
    rcases Nat.lt_or_ge (viewSlice v s).length 8 with hl | hl
    · exact ⟨_, exec_decode_short hl⟩
    · exact ⟨_, exec_decode hl⟩
  | strip =>
    by_cases hl : s.rxlen = 0
    · exact ⟨_, exec_strip_empty hl⟩
    · exact ⟨_, exec_strip hl⟩
  | construct fam plp id =>
    rw [exec, execConstruct]
    split_ifs <;> exact ⟨_, rfl⟩
  | send =>
    by_cases hp : s.status.phase = .opened
    · exact ⟨_, exec_send hp⟩
    · exact ⟨_, exec_of_not_opened (.inl rfl) hp⟩
  | recv =>
    by_cases hp : s.status.phase = .opened
    · exact ⟨_, exec_recv hp⟩
    · exact ⟨_, exec_of_not_opened (.inr (.inl rfl)) hp⟩
  | close =>
    by_cases hp : s.status.phase = .opened
    · exact ⟨_, exec_close hp⟩
    · exact ⟨_, exec_of_not_opened (.inr (.inr rfl)) hp⟩

/-- No command word stops the block: an illegal one completes with IllegalCommand (R161). -/
theorem exists_issue_eq_next (w : Word) (s : State) : ∃ t, issue w s = .next t := by
  unfold issue
  cases decode w with
  | error _ => exact ⟨_, rfl⟩
  | ok i => exact exists_exec_eq_next i _

/-- No host action stops the block. -/
theorem exists_runAction_eq_next (a : HostAction) (s : State) : ∃ t, runAction a s = .next t := by
  cases a with
  | read addr size => exact ⟨_, rfl⟩
  | write addr size v =>
    by_cases hi : issues addr size s = true
    · rw [runAction, if_pos hi]
      exact exists_issue_eq_next v s
    · rw [runAction, if_neg hi]
      exact ⟨_, rfl⟩
  | answer ans => exact ⟨_, rfl⟩
  | reset => exact ⟨_, rfl⟩

/-- No step stops the block. -/
theorem exists_step_eq_next (s : State) : ∃ t, step s = .next t := by
  cases hs : s.script with
  | nil => exact ⟨s, by rw [step, takeAction, hs]⟩
  | cons a rest =>
    rw [step_cons hs]
    exact exists_runAction_eq_next a _

/-! ### Several instances -/

/-- An instance that does not exist changes nothing. -/
theorem stepInstance_of_getElem?_eq_none {k : Nat} {blocks : List State} (hk : blocks[k]? = none) :
    stepInstance k blocks = .next blocks := by
  rw [stepInstance, hk]

/-- Instance k makes its own step, and its next state takes its place. -/
theorem stepInstance_of_getElem?_eq_some {k : Nat} {blocks : List State} {s t : State}
    (hk : blocks[k]? = some s) (hs : step s = .next t) :
    stepInstance k blocks = .next (blocks.set k t) := by
  simp only [stepInstance, hk, hs]

/-- Settles O59: a step sets entry k of the list of instances to the next state of that entry alone. -/
theorem instancesShareNothing : Obligations.InstancesShareNothing := by
  intro k blocks _
  cases hk : blocks[k]? with
  | none =>
    exact ⟨blocks, stepInstance_of_getElem?_eq_none hk, rfl, fun _ _ => rfl, fun _ h => nomatch h⟩
  | some s =>
    obtain ⟨t, ht⟩ := exists_step_eq_next s
    obtain ⟨hlt, -⟩ := List.getElem?_eq_some_iff.1 hk
    refine ⟨blocks.set k t, stepInstance_of_getElem?_eq_some hk ht, List.length_set,
      fun j hj => List.getElem?_set_ne hj.symm, fun s' h => ?_⟩
    cases h
    exact ⟨t, ht, List.getElem?_set_self hlt⟩

end Sys2Proof.Machine
end

section
/-! The invariants of R43 hold at reset and after every step (spec/10_state.md R23, R42, R43). -/

namespace Sys2Proof.Machine

variable {s t : State}

/-! ### The parts of the invariant -/

/-- The bounds of R43 on the registers, which do not depend on what the block is doing. -/
structure State.Bounds (s : State) : Prop where
  family_zero : s.family = 0
  plen_le : s.plen.toNat ≤ Config.maxPlen
  txlen_range : s.txlen.toNat = 0 ∨ (8 ≤ s.txlen.toNat ∧ s.txlen.toNat ≤ 8 + Config.maxPlen)
  rxlen_le : s.rxlen.toNat ≤ Buffer.rxbuf.size
  rdlen_le : s.rdlen.toNat ≤ Buffer.rdata.size

/-- What the hidden state and PHASE hold while the block waits at a point of a command (R25, R42). -/
def State.WaitsAt : BusyStep → State → Prop
  | .idle, s => s.pendBefore = none ∧
      ((s.status.phase = .noSession ∧ s.sock = .none) ∨ (s.status.phase = .opened ∧ s.sock = .held))
  | .constructResolve, s | .constructSocket, s => s.pendBefore ≠ none ∧
      s.status.phase = .noSession ∧ s.sock = .none ∧ s.pendPlen.toNat ≤ Config.maxPlen
  | .sendTx, s => s.pendBefore = none ∧ s.status.phase = .sending ∧ s.sock = .held
  | .recvWait, s => s.pendBefore = none ∧ s.status.phase = .awaiting ∧ s.sock = .held

/-- What STATUS holds between steps: ERR goes with ECODE (R43), and BUSY and DONE exclude each other (R23). -/
def Status.Consistent (st : Status) : Prop :=
  (st.err = true ↔ st.ecode.code ≠ 0) ∧ ¬ (st.busy = true ∧ st.done = true)

theorem SocketClaim.eq_none_iff (k : SocketClaim) : k = .none ↔ k ≠ .held := by
  cases k <;> decide

/-- Under the invariant, h.STEP says what the hidden state and PHASE hold. -/
theorem State.Inv.waitsAt (h : s.Inv) : s.WaitsAt s.hstep := by
  obtain ⟨-, -, -, -, -, -, -, hk, -, hsend, hrecv, hpend, hcons⟩ := h
  have hn : s.sock = .none ↔ s.status.phase = .noSession :=
    s.sock.eq_none_iff.trans (hk.not.trans not_not)
  cases hh : s.hstep with
  | idle =>
    simp only [hh, reduceCtorEq, false_iff, or_self, not_false_eq_true, iff_true] at hsend hrecv hpend
    refine ⟨hpend, ?_⟩
    cases hp : s.status.phase with
    | noSession => exact .inl ⟨rfl, hn.2 hp⟩
    | opened => exact .inr ⟨rfl, hk.2 (by simp [hp])⟩
    | sending => exact absurd hp hsend
    | awaiting => exact absurd hp hrecv
  | constructResolve | constructSocket =>
    simp only [hh, reduceCtorEq, true_or, or_true, not_true_eq_false, iff_false,
      forall_true_left] at hpend hcons
    exact ⟨hpend, hcons.1, hn.2 hcons.1, hcons.2⟩
  | sendTx =>
    simp only [hh, true_iff, reduceCtorEq, or_self, not_false_eq_true, iff_true] at hsend hpend
    exact ⟨hpend, hsend, hk.2 (by simp [hsend])⟩
  | recvWait =>
    simp only [hh, true_iff, reduceCtorEq, or_self, not_false_eq_true, iff_true] at hrecv hpend
    exact ⟨hpend, hrecv, hk.2 (by simp [hrecv])⟩

/-- The invariant from its parts. -/
theorem State.inv_of_waitsAt (hb : s.Bounds) (hw : s.WaitsAt s.hstep) (hc : s.status.Consistent)
    (hi : s.status.busy = true ↔ s.hstep ≠ .idle) : s.Inv := by
  refine { hb with
    err_iff := hc.1, busy_iff := hi, busy_not_done := hc.2
    sock_iff := ?_, sending_iff := ?_, awaiting_iff := ?_, pend_before := ?_, construct_pending := ?_ }
  all_goals
    cases hh : s.hstep <;> rw [hh] at hw
    case idle => obtain ⟨hp, ⟨hph, hk⟩ | ⟨hph, hk⟩⟩ := hw <;> simp [hp, hph, hk]
    case sendTx | recvWait =>
      obtain ⟨hp, hph, hk⟩ := hw
      simp [hp, hph, hk]
    case constructResolve | constructSocket =>
      obtain ⟨hp, hph, hk, hl⟩ := hw
      simp [hp, hph, hk, hl]

theorem State.Inv.bounds (h : s.Inv) : s.Bounds := { h with }

/-- The invariant does not speak of the actions to come. -/
theorem State.Inv.withScript (h : s.Inv) (rest : List HostAction) :
    ({ s with script := rest } : State).Inv := { h with }

theorem State.Inv.consistent (h : s.Inv) : s.status.Consistent := ⟨h.err_iff, h.busy_not_done⟩

/-- A block that is not busy waits for nothing. -/
theorem State.Inv.hstep_eq_idle (h : s.Inv) (hb : s.status.busy = false) : s.hstep = .idle := by
  have hi := h.busy_iff
  simpa [hb] using hi

/-- A block that waits for an answer is busy. -/
theorem State.Inv.busy (h : s.Inv) (hw : s.hstep ≠ .idle) : s.status.busy = true := h.busy_iff.2 hw

/-! ### What keeps the bounds -/

theorem State.Bounds.encodeInto (h : s.Bounds) (ty : Byte) (id sq : Half) :
    (encodeInto ty id sq s).Bounds :=
  { h with
    txlen_range := by
      have hp := h.plen_le
      rw [txlen_encodeInto ty id sq hp]
      omega }

theorem State.Bounds.prepareRequest (h : s.Bounds) : (prepareRequest s).Bounds :=
  { h with
    txlen_range := by
      have hp := h.plen_le
      rw [txlen_prepareRequest hp]
      omega }

theorem State.Bounds.storeDatagram (h : s.Bounds) (d : List Byte) : (storeDatagram d s).Bounds :=
  { h with
    rxlen_le := by
      have hp := h.plen_le
      rw [rxlen_storeDatagram hp, Buffer.size_rxbuf]
      omega }

/-- A message no longer than RXBUF leaves at most RDATA_SIZE bytes of data (R106). -/
theorem State.Bounds.writeReply (h : s.Bounds) {m : List Byte} (hm : m.length ≤ Config.maxPlen + 68) :
    (writeReply m s).Bounds :=
  { h with
    rdlen_le := by
      have hb := Config.maxPlen_bounds
      rw [rdlen_writeReply s (by omega), Buffer.size_rdata]
      omega }

/-- Neither view is longer than RXBUF. -/
theorem State.Bounds.length_viewSlice_le (h : s.Bounds) (v : View) :
    (viewSlice v s).length ≤ Config.maxPlen + 68 := by
  have htx := h.txlen_range
  have hrx := h.rxlen_le
  rw [Buffer.size_rxbuf] at hrx
  cases v with
  | tx =>
    rw [viewSlice, length_bufferSlice]
    omega
  | rx =>
    rw [viewSlice, length_bufferSlice]
    omega

/-! ### What keeps the invariant -/

/-- Completion leaves a consistent STATUS, whatever it was before (R153). -/
theorem Status.consistent_completed (e : ErrorCode) (st : Status) : (st.completed e).Consistent := by
  refine ⟨?_, by simp⟩
  cases e <;> simp [ErrorCode.code]

/-- What holds at a point of a command is about these fields only. -/
theorem State.WaitsAt.congr {p : BusyStep} (h : s.WaitsAt p) (hb : t.pendBefore = s.pendBefore)
    (hp : t.status.phase = s.status.phase) (hk : t.sock = s.sock) (hl : t.pendPlen = s.pendPlen) :
    t.WaitsAt p := by
  cases p <;> simpa only [State.WaitsAt, hb, hp, hk, hl] using h

/-- A command ends: it needs what holds when nothing waits. -/
theorem State.inv_complete {e : ErrorCode} (hb : s.Bounds) (hw : s.WaitsAt .idle) :
    (complete e s).Inv :=
  State.inv_of_waitsAt { hb with } hw (Status.consistent_completed e _) (by simp)

/-- A command ends in an open session (R128, R133, R134). -/
theorem State.inv_complete_opened {e : ErrorCode} (hb : s.Bounds) (hp : s.pendBefore = none)
    (hk : s.sock = .held) : (complete e (setPhase .opened s)).Inv :=
  State.inv_complete { hb with } ⟨hp, .inr ⟨rfl, hk⟩⟩

/-- A busy command asks the host: it needs what holds at the point where it then waits. -/
theorem State.inv_ask {p : BusyStep} {r : HostRequest} (hb : s.Bounds) (hw : s.WaitsAt p)
    (hc : s.status.Consistent) (hbusy : s.status.busy = true) (hp : p ≠ .idle) : (ask p r s).Inv :=
  State.inv_of_waitsAt { hb with } (hw.congr rfl rfl rfl rfl) hc (by simp [hbusy, hp])

/-- BUSY ← 1 in a state whose last command was forgotten. -/
theorem Status.Consistent.waiting {st : Status} (h : st.Consistent) (hd : st.done = false) :
    st.waiting.Consistent := ⟨h.1, by simp [hd]⟩

/-- Recording an issue forgets the last command's end. -/
theorem State.Inv.recordIssue (h : s.Inv) (w : Word) : (recordIssue w s).Inv :=
  { h with err_iff := by simp [ErrorCode.code], busy_not_done := by simp }

/-- Every command keeps the invariant. -/
theorem State.Inv.exec (h : s.Inv) (hi : s.hstep = .idle) (hd : s.status.done = false) {i : Instr}
    (he : exec i s = .next t) : t.Inv := by
  have hb := h.bounds
  have hw : s.WaitsAt .idle := hi ▸ h.waitsAt
  have hc := h.consistent.waiting hd
  have ⟨hpend, hsock⟩ := hw
  rcases exec_cases he with ⟨e, -, rfl⟩ | ⟨v, -, rfl⟩ | ⟨ty, -, rfl⟩ | ⟨-, -, rfl⟩ | ⟨v, -, -, rfl⟩ |
    ⟨-, -, rfl⟩ | ⟨plp, id, -, hph, harg, rfl⟩ | ⟨-, hph, rfl⟩ | ⟨-, hph, rfl⟩ | ⟨-, -, rfl⟩
  · exact State.inv_complete hb hw
  · exact State.inv_complete { hb with } hw
  · exact State.inv_complete (hb.encodeInto ty _ _) hw
  · exact State.inv_complete { hb with } hw
  · exact State.inv_complete (hb.writeReply (hb.length_viewSlice_le v)) hw
  · exact State.inv_complete { hb with } hw
  · simp only [hph, true_and, reduceCtorEq, false_and, or_false] at hsock
    refine State.inv_ask { hb with } ⟨by simp, hph, hsock, ?_⟩ hc rfl (by decide)
    cases plp with
    | true => exact harg rfl
    | false => exact Config.maxPlen_bounds.1
  · simp only [hph, true_and, reduceCtorEq, false_and, false_or] at hsock
    exact State.inv_ask { hb.prepareRequest with } ⟨by simp [hpend], rfl, by simp [hsock]⟩ hc rfl
      (by decide)
  · simp only [hph, true_and, reduceCtorEq, false_and, false_or] at hsock
    exact State.inv_ask { hb with } ⟨hpend, rfl, hsock⟩ hc rfl (by decide)
  · exact State.inv_complete { hb with } ⟨hpend, .inl ⟨rfl, rfl⟩⟩

/-- What a stored and stripped datagram holds of the enclosed message is no longer than RXBUF. -/
theorem State.Bounds.capacity_le (h : s.Bounds) (d : List Byte) (k : Nat) :
    min d.length (68 + s.plen.toNat) - k ≤ Config.maxPlen + 68 := by
  have hp := h.plen_le
  omega

/-- A SEND or RECV that waits holds the socket, and no CONSTRUCT is in progress. -/
theorem State.Inv.session_waits (h : s.Inv) (hi : s.hstep = .sendTx ∨ s.hstep = .recvWait) :
    s.pendBefore = none ∧ s.sock = .held := by
  have hw := h.waitsAt
  rcases hi with hi | hi <;> rw [hi] at hw <;> exact ⟨hw.1, hw.2.2⟩

/-- A datagram keeps the invariant. -/
theorem State.Inv.recvDatagram (h : s.Inv) (hi : s.hstep = .recvWait) (d : List Byte) (src : Word) :
    (recvDatagram d src s).Inv := by
  have hb := h.bounds
  have hs := hb.storeDatagram d
  have hw : s.WaitsAt .recvWait := hi ▸ h.waitsAt
  obtain ⟨hpend, hsock⟩ : (stripDatagram (storeDatagram d s)).pendBefore = none ∧
      (stripDatagram (storeDatagram d s)).sock = .held := by
    obtain ⟨hpend, hsock⟩ := h.session_waits (.inr hi)
    exact ⟨by simp [hpend], by simp [hsock]⟩
  rcases recvDatagram_cases d src s with ⟨-, -, he⟩ | he | ⟨-, he⟩ | ⟨m, hm, -, -, he⟩ <;> rw [he]
  · exact State.inv_complete_opened { hs with } hpend hsock
  · exact State.inv_complete_opened { hs with } hpend hsock
  · exact State.inv_ask { hs with } (hw.congr rfl rfl rfl rfl) h.consistent (h.busy (by simp [hi]))
      (by decide)
  · have hr : (stripDatagram (storeDatagram d s)).Bounds := { hs with }
    have hm : m.length ≤ Config.maxPlen + 68 := by
      rw [hm, length_bufferSlice]
      exact hb.capacity_le d _
    exact State.inv_complete_opened { hr.writeReply hm with } hpend hsock

/-- A CONSTRUCT that the host fails keeps the invariant. -/
theorem State.Inv.constructFail (h : s.Inv)
    (hi : s.hstep = .constructResolve ∨ s.hstep = .constructSocket) (e : ErrorCode) :
    (constructFail e s).Inv := by
  have hb := h.bounds
  have hw : s.status.phase = .noSession ∧ s.sock = .none := by
    have hw := h.waitsAt
    rcases hi with hi | hi <;> rw [hi] at hw <;> exact ⟨hw.2.1, hw.2.2.1⟩
  exact State.inv_complete { hb with } ⟨rfl, .inl hw⟩

/-- Every answer that R120 allows keeps the invariant. -/
theorem State.Inv.takeAnswer (h : s.Inv) {ans : HostAnswer} (ha : AnswersPending ans s) :
    (takeAnswer ans s).Inv := by
  have hb := h.bounds
  have hw := h.waitsAt
  cases ans with
  | resolveOk addr =>
    have hi : s.hstep = .constructResolve := ha
    rw [hi] at hw
    exact State.inv_ask { hb with } hw h.consistent (h.busy (by simp [hi])) (by decide)
  | resolveFail => exact h.constructFail (.inl ha) _
  | socketOk =>
    have hi : s.hstep = .constructSocket := ha
    rw [hi] at hw
    obtain ⟨-, -, -, hl⟩ := hw
    exact State.inv_complete_opened { hb with family_zero := rfl, plen_le := hl } rfl rfl
  | socketFail => exact h.constructFail (.inr ha) _
  | sendtoOk n =>
    obtain ⟨hpend, hsock⟩ := h.session_waits (.inl ha.1)
    exact State.inv_complete_opened { hb with } hpend hsock
  | sendtoFail =>
    obtain ⟨hpend, hsock⟩ := h.session_waits (.inl ha)
    exact State.inv_complete_opened { hb with } hpend hsock
  | recvfromOk d src => exact h.recvDatagram ha d src
  | recvfromFail =>
    obtain ⟨hpend, hsock⟩ := h.session_waits (.inr ha)
    exact State.inv_complete_opened { hb with } hpend hsock

/-- The reset state meets the invariant (R170). -/
theorem State.reset_inv : State.reset.Inv :=
  State.inv_of_waitsAt ⟨rfl, Config.maxPlen_bounds.1, .inl rfl, Nat.zero_le _, Nat.zero_le _⟩
    ⟨rfl, .inl ⟨rfl, rfl⟩⟩ ⟨by decide, by decide⟩ (by decide)

/-- Every host action keeps the invariant. -/
theorem State.Inv.runAction (h : s.Inv) {a : HostAction} (hr : runAction a s = .next t) : t.Inv := by
  rcases runAction_cases hr with rfl | ⟨_, _, _, -, rfl⟩ | ⟨-, rfl⟩ | ⟨ans, -, ha, rfl⟩ |
    ⟨w, -, hbusy, rfl | ⟨i, -, he⟩⟩ | ⟨_, _, v, -, -, ⟨r, hw⟩ | ⟨b, i, -, -, rfl⟩⟩
  · exact { h with }
  · exact { h with }
  · exact { State.reset_inv with }
  · exact h.takeAnswer ha
  · have hi := h.hstep_eq_idle hbusy
    have hq : s.WaitsAt .idle := hi ▸ h.waitsAt
    exact State.inv_complete { h with } hq
  · exact (h.recordIssue w).exec (h.hstep_eq_idle hbusy) rfl he
  · rcases writeReg_cases hw with ⟨-, rfl⟩ | ⟨-, rfl⟩ | ⟨-, -, hv, rfl⟩ | ⟨-, rfl⟩ | ⟨-, hv, rfl⟩
    · exact { h with }
    · exact { h with }
    · exact { h with plen_le := hv }
    · exact { h with }
    · exact { h with rxlen_le := hv }
  · exact { h with }

/-- Settles O18: every register is 0 or its default, nothing waits, and memory is empty. -/
theorem resetMeetsTheInvariant : Obligations.ResetMeetsTheInvariant :=
  ⟨State.reset_inv, ⟨List.Pairwise.nil, nofun⟩, nofun⟩

/-- Settles O19: every host action keeps the invariant, and a step without one changes nothing. -/
theorem stepKeepsTheInvariant : Obligations.StepKeepsTheInvariant := by
  intro s t _ h hs
  rcases step_next_cases hs with ⟨-, rfl⟩ | ⟨a, rest, -, hr⟩
  · exact h
  · exact (h.withScript rest).runAction hr

end Sys2Proof.Machine
end

section
/-! Where the fields of STATUS stand in its 32-bit value (spec/10_state.md R22). -/

namespace Sys2Proof.Machine

/-- The fields of a value laid out as R22 lays out STATUS. -/
theorem fields_of_statusLayout (phase : BitVec 2) (ecode : BitVec 4) (err done busy : Bool) :
    let w := 0#22 ++ (phase ++ (ecode ++
      (0#1 ++ (BitVec.ofBool err ++ (BitVec.ofBool done ++ BitVec.ofBool busy)))))
    w.getLsbD 0 = busy ∧ w.getLsbD 1 = done ∧ w.getLsbD 2 = err ∧ w.getLsbD 3 = false ∧
      w.extractLsb' 4 4 = ecode ∧ w.extractLsb' 8 2 = phase ∧ w.extractLsb' 10 22 = 0#22 := by
  refine ⟨?_, ?_, ?_, ?_, ?_, ?_, ?_⟩
  · simp only [BitVec.getLsbD_append]
    simp
  · simp only [BitVec.getLsbD_append]
    simp
  · simp only [BitVec.getLsbD_append]
    simp
  · simp only [BitVec.getLsbD_append]
    simp
  · rw [BitVec.extractLsb'_append_eq_of_add_le (by decide),
      BitVec.extractLsb'_append_eq_of_add_le (by decide)]
    exact BitVec.extractLsb'_append_eq_left
  · rw [BitVec.extractLsb'_append_eq_of_add_le (by decide)]
    exact BitVec.extractLsb'_append_eq_left
  · exact BitVec.extractLsb'_append_eq_left

/-- Settles O21: STATUS is its fields laid out by R22, and the codes are R150's. -/
theorem statusFieldsStandWhereTheyShould : Obligations.StatusFieldsStandWhereTheyShould := by
  intro st
  obtain ⟨hbusy, hdone, herr, hrsv, hecode, hphase, htop⟩ :=
    fields_of_statusLayout st.phase.code st.ecode.code st.err st.done st.busy
  exact ⟨hbusy, hdone, herr, hrsv, hecode, hphase, htop,
    rfl, rfl, rfl, rfl, rfl, rfl, rfl, rfl, rfl, rfl, rfl⟩

end Sys2Proof.Machine
end

section
/-! A legal word is the word of the command it decodes to (spec/30_encoding.md R70, R73). -/

namespace Sys2Proof

/-- One bit of a word, as a bit vector. -/
theorem extractLsb'_one (w : Word) (i : Nat) : w.extractLsb' i 1 = BitVec.ofBool (w.getLsbD i) := by
  apply BitVec.eq_of_getLsbD_eq
  intro k hk
  obtain rfl : k = 0 := by omega
  simp [-BitVec.getLsbD_eq_getElem]

/-- SRC is w[8]. -/
theorem srcField_bit (w : Word) : (srcField w).bit = w.extractLsb' 8 1 := by
  rw [extractLsb'_one, srcField]
  cases w.getLsbD 8 <;> rfl

/-- FAM is w[8]. -/
theorem famField_bit (w : Word) : (famField w).bit = w.extractLsb' 8 1 := by
  rw [extractLsb'_one, famField]
  cases w.getLsbD 8 <;> rfl

theorem encode_of_onlySrc {w : Word} {i j : Instr} {op : BitVec 4} (hr : rsvField w = 0#4)
    (ho : opField w = op) (hi : encode i = packWord 0#16 (0#7 ++ (srcField w).bit) op)
    (h : onlySrc w i = .ok j) : encode j = w := by
  unfold onlySrc at h
  split_ifs at h with hf
  cases h
  have hB : 0#7 ++ (srcField w).bit = bField w := by
    rw [srcField_bit, ← hf.1]
    exact BitVec.extractLsb'_append_extractLsb'_eq_extractLsb' rfl
  rw [hi, hB, ← hf.2, ← ho, packWord_fields hr]

theorem encode_of_noFields {w : Word} {i j : Instr} {op : BitVec 4} (hr : rsvField w = 0#4)
    (ho : opField w = op) (hi : encode i = packWord 0#16 0#8 op)
    (h : noFields w i = .ok j) : encode j = w := by
  unfold noFields at h
  split_ifs at h with hf
  cases h
  rw [hi, ← hf.1, ← hf.2, ← ho, packWord_fields hr]

/-- Encoding what a legal word decodes to gives the word back. -/
theorem encode_of_decode {w : Word} {i : Instr} (h : decode w = .ok i) : encode i = w := by
  unfold decode at h
  split_ifs at h with hr h1 h2 hf2 h3 h4 h5 h6 hf6 h7 h8 h9 <;> rw [not_not] at hr
  · exact encode_of_onlySrc hr h1 rfl h
  · cases h
    rw [encode, ← hf2, ← h2, packWord_fields hr]
  · exact encode_of_noFields hr h3 rfl h
  · exact encode_of_onlySrc hr h4 rfl h
  · exact encode_of_noFields hr h5 rfl h
  · cases h
    have hB : 0#6 ++ (BitVec.ofBool (plpField w) ++ (famField w).bit) = bField w := by
      rw [plpField, ← extractLsb'_one, famField_bit, ← hf6,
        BitVec.extractLsb'_append_extractLsb'_eq_extractLsb' (start₁ := 8) (len₁ := 1) rfl]
      exact BitVec.extractLsb'_append_extractLsb'_eq_extractLsb' rfl
    rw [encode, hB, ← h6, packWord_fields hr]
  · exact encode_of_noFields hr h7 rfl h
  · exact encode_of_noFields hr h8 rfl h
  · exact encode_of_noFields hr h9 rfl h

end Sys2Proof
end

section
/-! What a step writes, said once: the results, the session registers and the buffers that it keeps, and the actions
that write one of them (spec/10_state.md R26 to R30, R37 to R39, R41). -/

namespace Sys2Proof.Machine

variable {s t : State}

/-! ### Sequences stored in buffers -/

/-- The second memory is the first with byte sequences stored in buffers that P allows, none past a buffer's end. -/
inductive Memory.Stores (P : Buffer → Prop) : Memory → Memory → Prop
  | refl (m : Memory) : Stores P m m
  | write {m m' : Memory} {b : Buffer} {i : Nat} {bs : List Byte} (h : Stores P m m') (hb : P b)
      (hfit : i + bs.length ≤ b.size) : Stores P m (m'.writeBytes (b.base + i) bs)

variable {P : Buffer → Prop} {m m' : Memory}

theorem Memory.Stores.wf (h : Stores P m m') (hm : m.wf) : m'.wf := by
  induction h with
  | refl => exact hm
  | write _ _ _ ih => exact Memory.wf_writeBytes ih _ _

/-- A cell after the stores lies in a buffer, or was there before. -/
theorem Memory.Stores.cell (h : Stores P m m') {c : Host.Cell} (hc : c ∈ m') :
    c ∈ m ∨ ∃ (b : Buffer) (i : Nat), i < b.size ∧ c.1 = b.base + i := by
  induction h with
  | refl => exact .inl hc
  | @write _ b i bs _ _ hfit ih =>
    rcases Memory.mem_writeBytes hc with hin | hc
    · exact .inr ⟨b, c.1 - b.base, by omega, by omega⟩
    · exact ih hc

/-- The windows of two buffers do not overlap (R53). -/
theorem Buffer.base_add_ne {b c : Buffer} (hbc : b ≠ c) {i k : Nat} (hi : i < b.size) (hk : k < c.size) :
    b.base + i ≠ c.base + k := by
  intro he
  have hn := Buffer.atAddr_eq_none_of_window hk hbc
  rw [(b.atAddr_eq_some_iff _ _).2 ⟨i, hi, he.symm, rfl⟩] at hn
  cases hn

/-- The bytes of a buffer that P does not allow stay. -/
theorem Memory.Stores.read_of_not (h : Stores P m m') {c : Buffer} (hc : ¬ P c) {k : Nat}
    (hk : k < c.size) : m'.read (c.base + k) = m.read (c.base + k) := by
  induction h with
  | refl => rfl
  | @write _ b i bs _ hb hfit ih =>
    have hbc : b ≠ c := fun he => hc (he ▸ hb)
    rw [Memory.read_writeBytes, if_neg, ih]
    intro hin
    exact Buffer.base_add_ne hbc (i := c.base + k - b.base) (by omega) hk (by omega)

/-- Memory stays canonical and inside the buffers. -/
theorem State.MemInv.of_stores (h : s.MemInv) (hst : Memory.Stores P s.mem t.mem) : t.MemInv := by
  obtain ⟨hwf, hin⟩ := h
  refine ⟨hst.wf hwf, fun c hc => ?_⟩
  rcases hst.cell hc with hc | hc
  · exact hin c hc
  · exact hc

/-! ### What the shared operations store -/

theorem stores_encodeInto (hP : P .txbuf) (hb : s.Bounds) (ty : Byte) (id sq : Half) :
    Memory.Stores P s.mem (encodeInto ty id sq s).mem := by
  have hp := hb.plen_le
  refine .write (i := 0) (.refl _) hP ?_
  rw [length_message, Buffer.size_txbuf]
  omega

theorem Memory.Stores.patchChecksum (hP : P .txbuf) (h : Memory.Stores P m s.mem) :
    Memory.Stores P m (patchChecksum s).mem :=
  .write (b := .txbuf) (i := 2) h hP (by simp [Buffer.size_txbuf])

theorem stores_prepareRequest (hP : P .txbuf) (hb : s.Bounds) :
    Memory.Stores P s.mem (prepareRequest s).mem := by
  unfold prepareRequest
  exact Memory.Stores.patchChecksum hP (stores_encodeInto hP hb _ _ _)

theorem stores_storeDatagram (hP : P .rxbuf) (hb : s.Bounds) (d : List Byte) :
    Memory.Stores P s.mem (storeDatagram d s).mem := by
  have hp := hb.plen_le
  refine .write (i := 0) (.refl _) hP ?_
  rw [List.length_take, rxCapacity_eq, Buffer.size_rxbuf]
  omega

theorem Memory.Stores.writeReply (hP : P .rdata) {r : List Byte} (hr : r.length ≤ Config.maxPlen + 68)
    (h : Memory.Stores P m s.mem) : Memory.Stores P m (writeReply r s).mem := by
  refine .write (b := .rdata) (i := 0) h hP ?_
  rw [List.length_drop, Buffer.size_rdata]
  omega

/-- The zero fill of a CONSTRUCT that waits for its socket stays inside PAYLOAD (R123). -/
theorem stores_constructSocket (hP : P .payload) (h : s.Inv) (hw : s.hstep = .constructSocket) :
    Memory.Stores P s.mem (constructSocket true s).mem := by
  refine .write (b := .payload) (i := 0) (.refl _) hP ?_
  rw [List.length_replicate, Nat.zero_add]
  exact (h.construct_pending (.inr hw)).2

/-! ### What most steps keep -/

/-- The session registers and the results are kept, and no byte of RDATA is written; PLEN is kept in a session. -/
structure Keeps (s t : State) : Prop where
  id : t.id = s.id
  saddr : t.saddr = s.saddr
  family : t.family = s.family
  plen : s.status.phase ≠ .noSession → t.plen = s.plen
  seq : t.seq = s.seq
  rtype : t.rtype = s.rtype
  rcode : t.rcode = s.rcode
  rcsum : t.rcsum = s.rcsum
  rid : t.rid = s.rid
  rseq : t.rseq = s.rseq
  rdlen : t.rdlen = s.rdlen
  rtotlen : t.rtotlen = s.rtotlen
  rsrc : t.rsrc = s.rsrc
  txcnt : t.txcnt = s.txcnt
  mem : Memory.Stores (· ≠ .rdata) s.mem t.mem

theorem Keeps.refl (s : State) : Keeps s s :=
  ⟨rfl, rfl, rfl, fun _ => rfl, rfl, rfl, rfl, rfl, rfl, rfl, rfl, rfl, rfl, rfl, .refl _⟩

/-- What an action does, by what it writes of what Keeps names: nothing; or it is a reset, the end of a successful
CONSTRUCT, SEND or RECV, or a successful DECODE. -/
inductive Effect (s : State) : HostAction → State → Prop
  | keeps {a : HostAction} {t : State} (h : Keeps s t) : Effect s a t
  | resets : Effect s .reset (hardReset s)
  | opens (hw : s.hstep = .constructSocket) : Effect s (.answer .socketOk) (constructSocket true s)
  | sends (n : Nat) (hw : s.hstep = .sendTx) :
      Effect s (.answer (.sendtoOk n)) (sendAnswer (some n) s)
  | receives (d : List Byte) (src : Word) (r : List Byte) (n : Half) (hw : s.hstep = .recvWait)
      (hr : r.length ≤ Config.maxPlen + 68) :
      Effect s (.answer (.recvfromOk d src)) (complete .none (setPhase .opened
        { writeReply r (stripDatagram (storeDatagram d s)) with rtotlen := n, rsrc := src }))
  | decodes (v : View) (r : List Byte) (hr : r.length ≤ Config.maxPlen + 68) :
      Effect s (issueCommand (.decode v))
        (complete .none (writeReply r (recordIssue (encode (.decode v)) s)))

/-- A command other than a successful DECODE keeps all of it. -/
theorem exec_effect (hb : s.Bounds) {w : Word} {i : Instr} (hd : decode w = .ok i)
    (he : exec i (recordIssue w s) = .next t) : Effect s (.write 0x00000 4 w) t := by
  have hb' : (recordIssue w s).Bounds := { hb with }
  have hk : Keeps s (recordIssue w s) := { Keeps.refl s with }
  rcases exec_cases he with ⟨e, -, rfl⟩ | ⟨v, -, rfl⟩ | ⟨ty, -, rfl⟩ | ⟨-, -, rfl⟩ | ⟨v, rfl, -, rfl⟩ |
    ⟨-, -, rfl⟩ | ⟨plp, id, -, -, -, rfl⟩ | ⟨-, -, rfl⟩ | ⟨-, -, rfl⟩ | ⟨-, -, rfl⟩
  · exact .keeps { hk with }
  · exact .keeps { hk with }
  · exact .keeps { hk with mem := stores_encodeInto (by decide) hb' ty _ _ }
  · exact .keeps { hk with mem := .patchChecksum (by decide) (.refl _) }
  · have hr := hb'.length_viewSlice_le v
    rw [← encode_of_decode hd] at hr ⊢
    exact .decodes v _ hr
  · exact .keeps { hk with }
  · exact .keeps { hk with }
  · exact .keeps { hk with mem := stores_prepareRequest (s := recordIssue w s) (by decide) hb' }
  · exact .keeps { hk with }
  · exact .keeps { hk with }

/-- A datagram writes none of it but as the end of a successful RECV. -/
theorem recvDatagram_effect (hb : s.Bounds) (hw : s.hstep = .recvWait) (d : List Byte) (src : Word) :
    Effect s (.answer (.recvfromOk d src)) (recvDatagram d src s) := by
  have hk : Keeps s (stripDatagram (storeDatagram d s)) :=
    { Keeps.refl s with mem := stores_storeDatagram (by decide) hb d }
  rcases recvDatagram_cases d src s with ⟨-, -, he⟩ | he | ⟨-, he⟩ | ⟨r, hr, -, -, he⟩ <;> rw [he]
  · exact .keeps { hk with }
  · exact .keeps { hk with }
  · exact .keeps { hk with }
  · refine .receives d src r _ hw ?_
    rw [hr, length_bufferSlice]
    exact hb.capacity_le d _

/-- An allowed answer writes none of it but as the end of a successful CONSTRUCT, SEND or RECV. -/
theorem takeAnswer_effect (hb : s.Bounds) {ans : HostAnswer} (ha : AnswersPending ans s) :
    Effect s (.answer ans) (takeAnswer ans s) := by
  cases ans with
  | resolveOk addr => exact .keeps { Keeps.refl s with }
  | socketOk => exact .opens ha
  | sendtoOk n => exact .sends n ha.1
  | recvfromOk d src => exact recvDatagram_effect hb ha d src
  | resolveFail | socketFail | sendtoFail | recvfromFail => exact .keeps { Keeps.refl s with }

/-- What an action of the host does. -/
theorem runAction_effect (hb : s.Bounds) {a : HostAction} (hr : runAction a s = .next t) :
    Effect s a t := by
  have hk := Keeps.refl s
  rcases runAction_cases hr with rfl | ⟨_, _, _, -, rfl⟩ | ⟨rfl, rfl⟩ | ⟨ans, rfl, ha, rfl⟩ |
    ⟨w, rfl, -, rfl | ⟨i, hd, he⟩⟩ | ⟨_, _, v, -, -, ⟨r, hw⟩ | ⟨b, i, hi, hw, rfl⟩⟩
  · exact .keeps { hk with }
  · exact .keeps { hk with }
  · exact .resets
  · exact takeAnswer_effect hb ha
  · exact .keeps { hk with }
  · exact exec_effect hb hd he
  · rcases writeReg_cases hw with ⟨-, rfl⟩ | ⟨-, rfl⟩ | ⟨-, hph, -, rfl⟩ | ⟨-, rfl⟩ | ⟨-, -, rfl⟩
    · exact .keeps { hk with }
    · exact .keeps { hk with }
    · exact .keeps { hk with plen := fun hn => absurd hph hn }
    · exact .keeps { hk with }
    · exact .keeps { hk with }
  · have hb : b ≠ .rdata := by
      rintro rfl
      cases hw
    exact .keeps { hk with mem := .write (.refl _) hb hi }

/-- What a step does that takes an action from the script. -/
theorem step_effect_cons (h : s.Inv) {a : HostAction} {rest : List HostAction}
    (ha : s.script = a :: rest) (hs : step s = .next t) : Effect { s with script := rest } a t :=
  runAction_effect (h.withScript rest).bounds (step_cons ha ▸ hs)

/-- What a step does: nothing, or what the action at the head of the script does. -/
theorem step_effect (h : s.Inv) (hs : step s = .next t) :
    t = s ∨ ∃ a rest, s.script = a :: rest ∧ Effect { s with script := rest } a t := by
  rcases step_next_cases hs with ⟨-, rfl⟩ | ⟨a, rest, ha, -⟩
  · exact .inl rfl
  · exact .inr ⟨a, rest, ha, step_effect_cons h ha hs⟩

end Sys2Proof.Machine
end

section
/-! Which step writes memory, the session registers and the results (spec/10_state.md R26 to R30, R37 to R39). -/

namespace Sys2Proof.Machine

/-- Settles O20: every store of a step lies in a buffer, and none is past its end. -/
theorem stepKeepsMemoryInsideTheBuffers : Obligations.StepKeepsMemoryInsideTheBuffers := by
  intro s t _ h hm hs
  rcases step_effect h hs with rfl | ⟨a, rest, -, he⟩
  · exact hm
  cases he with
  | keeps hk => exact hm.of_stores hk.mem
  | resets => exact resetMeetsTheInvariant.2
  | opens hw =>
    have hst := stores_constructSocket (P := fun _ => True) trivial (h.withScript rest) hw
    exact hm.of_stores hst
  | sends n hw => exact hm
  | receives d src r n hw hr =>
    exact hm.of_stores (P := fun _ => True)
      ((stores_storeDatagram trivial (h.withScript rest).bounds d).writeReply trivial hr)
  | decodes v r hr => exact hm.of_stores (P := fun _ => True) (.writeReply trivial hr (.refl _))

/-- Settles O54: ID, SADDR and FAMILY are written by a reset and by the end of a successful CONSTRUCT only, and neither
step begins and ends in a session. -/
theorem sessionRegistersAreConstant : Obligations.SessionRegistersAreConstant := by
  intro s t _ h hs
  rcases step_effect h hs with rfl | ⟨a, rest, ha, he⟩
  · exact ⟨by simp, fun _ _ => ⟨rfl, rfl, rfl, rfl⟩⟩
  cases he with
  | keeps hk =>
    obtain ⟨hid, hsaddr, hfam, hplen⟩ := hk
    exact ⟨by simp [hid, hsaddr, hfam], fun hp _ => ⟨hid, hsaddr, hfam, hplen hp⟩⟩
  | resets => exact ⟨fun _ => ⟨rest, .inl ha⟩, fun _ hp => absurd rfl hp⟩
  | opens hw =>
    exact ⟨fun _ => ⟨rest, .inr ⟨hw, ha⟩⟩, fun hp _ => absurd (h.construct_pending (.inr hw)).1 hp⟩
  | sends n hw => exact ⟨by simp [sendAnswer], fun _ _ => ⟨rfl, rfl, rfl, rfl⟩⟩
  | receives d src r n hw hr => exact ⟨by simp, fun _ _ => by simp⟩
  | decodes v r hr => exact ⟨by simp, fun _ _ => by simp⟩

/-- Settles O55: a reset and the end of a successful CONSTRUCT clear SEQ, and the end of a successful SEND adds 1. -/
theorem sequenceIsWrittenOnlyBySendAndConstruct :
    Obligations.SequenceIsWrittenOnlyBySendAndConstruct := by
  intro s t _ h hs
  rcases step_effect h hs with rfl | ⟨a, rest, ha, he⟩
  · exact .inl rfl
  cases he with
  | keeps hk => exact .inl hk.seq
  | resets => exact .inr (.inl ⟨rfl, rest, .inl ha⟩)
  | opens hw => exact .inr (.inl ⟨rfl, rest, .inr ⟨hw, ha⟩⟩)
  | sends n hw => exact .inr (.inr ⟨BitVec.toNat_add _ _, hw, rfl, n, rest, ha⟩)
  | receives d src r n hw hr => exact .inl (by simp)
  | decodes v r hr => exact .inl (by simp)

/-- Settles O56: only a successful DECODE and the end of a successful RECV write a reply, and both end without an
error; the others store nothing in RDATA. -/
theorem repliesAreWrittenOnlyBySuccess : Obligations.RepliesAreWrittenOnlyBySuccess := by
  intro s t a rest _ h ha hs hne hn
  have he := step_effect_cons h ha hs
  cases he with
  | keeps hk =>
    exact ⟨hk.rtype, hk.rcode, hk.rcsum, hk.rid, hk.rseq, hk.rdlen,
      fun i hi => hk.mem.read_of_not (c := .rdata) (not_not.2 rfl) hi⟩
  | resets => exact absurd rfl hne
  | opens hw =>
    have hst := stores_constructSocket (P := (· ≠ .rdata)) (by decide) (h.withScript rest) hw
    exact ⟨rfl, rfl, rfl, rfl, rfl, rfl,
      fun i hi => hst.read_of_not (c := .rdata) (not_not.2 rfl) hi⟩
  | sends n hw => exact ⟨rfl, rfl, rfl, rfl, rfl, rfl, fun _ _ => rfl⟩
  | receives d src r n hw hr => exact absurd ⟨rfl, rfl, .inr hw⟩ hn
  | decodes v r hr => exact absurd ⟨rfl, rfl, .inl ⟨v, rfl⟩⟩ hn

/-- Settles O57: the end of a successful RECV writes RTOTLEN and RSRC, the end of a successful SEND writes TXCNT, and
both end without an error. -/
theorem resultRegistersAreWrittenOnlyBySuccess : Obligations.ResultRegistersAreWrittenOnlyBySuccess := by
  intro s t a rest _ h ha hs hne
  have he := step_effect_cons h ha hs
  cases he with
  | keeps hk => exact ⟨fun _ => ⟨hk.rtotlen, hk.rsrc⟩, fun _ => hk.txcnt⟩
  | resets => exact absurd rfl hne
  | opens hw => exact ⟨fun _ => ⟨rfl, rfl⟩, fun _ => rfl⟩
  | sends n hw => exact ⟨fun _ => ⟨rfl, rfl⟩, fun hn => absurd ⟨rfl, rfl, hw⟩ hn⟩
  | receives d src r n hw hr => exact ⟨fun hn => absurd ⟨rfl, rfl, hw⟩ hn, fun _ => by simp⟩
  | decodes v r hr => exact ⟨fun _ => by simp, fun _ => by simp⟩

end Sys2Proof.Machine
end

section
/-! Which step changes PHASE (spec/10_state.md R25). -/

namespace Sys2Proof.Machine

variable {s t : State}

/-- A command changes PHASE only as SEND, RECV or CLOSE in an open session. -/
theorem exec_phase_cases {i : Instr} (h : exec i s = .next t) :
    t.status.phase = s.status.phase ∨
    (s.status.phase = .opened ∧
      ((i = .send ∧ t.status.phase = .sending) ∨ (i = .recv ∧ t.status.phase = .awaiting) ∨
        (i = .close ∧ t.status.phase = .noSession))) := by
  rcases exec_cases h with ⟨e, -, rfl⟩ | ⟨v, -, rfl⟩ | ⟨ty, -, rfl⟩ | ⟨-, -, rfl⟩ | ⟨v, -, -, rfl⟩ |
    ⟨-, -, rfl⟩ | ⟨plp, id, -, -, -, rfl⟩ | ⟨hi, hp, rfl⟩ | ⟨hi, hp, rfl⟩ | ⟨hi, hp, rfl⟩
  · exact .inl rfl
  · exact .inl rfl
  · exact .inl rfl
  · exact .inl rfl
  · exact .inl rfl
  · exact .inl rfl
  · exact .inl rfl
  · exact .inr ⟨hp, .inl ⟨hi, rfl⟩⟩
  · exact .inr ⟨hp, .inr (.inl ⟨hi, rfl⟩)⟩
  · exact .inr ⟨hp, .inr (.inr ⟨hi, rfl⟩)⟩

/-- A datagram ends RECV in an open session, or is discarded and leaves PHASE. -/
theorem recvDatagram_phase (d : List Byte) (src : Word) (s : State) :
    (recvDatagram d src s).status.phase = s.status.phase ∨
      (recvDatagram d src s).status.phase = .opened := by
  rcases recvDatagram_cases d src s with ⟨-, -, he⟩ | he | ⟨-, he⟩ | ⟨m, -, -, -, he⟩ <;> rw [he]
  · exact .inr rfl
  · exact .inr rfl
  · exact .inl rfl
  · exact .inr rfl

/-- An answer changes PHASE to OPEN only: from NOSESSION as the socket of a CONSTRUCT, from SENDING as the answer to a
SEND, from AWAITING as the answer to a RECV. -/
theorem takeAnswer_phase_cases (h : s.Inv) {ans : HostAnswer} (ha : AnswersPending ans s) :
    (takeAnswer ans s).status.phase = s.status.phase ∨
    ((takeAnswer ans s).status.phase = .opened ∧
      ((s.status.phase = .noSession ∧ s.hstep = .constructSocket ∧ ans = .socketOk) ∨
        (s.status.phase = .sending ∧ (ans = .sendtoFail ∨ ∃ n, ans = .sendtoOk n)) ∨
        (s.status.phase = .awaiting ∧ (ans = .recvfromFail ∨ ∃ d src, ans = .recvfromOk d src)))) := by
  cases ans with
  | resolveOk addr => exact .inl rfl
  | resolveFail => exact .inl rfl
  | socketOk => exact .inr ⟨rfl, .inl ⟨(h.construct_pending (.inr ha)).1, ha, rfl⟩⟩
  | socketFail => exact .inl rfl
  | sendtoOk n => exact .inr ⟨rfl, .inr (.inl ⟨h.sending_iff.1 ha.1, .inr ⟨n, rfl⟩⟩)⟩
  | sendtoFail => exact .inr ⟨rfl, .inr (.inl ⟨h.sending_iff.1 ha, .inl rfl⟩)⟩
  | recvfromOk d src =>
    rcases recvDatagram_phase d src s with hp | hp
    · exact .inl hp
    · exact .inr ⟨hp, .inr (.inr ⟨h.awaiting_iff.1 ha, .inr ⟨d, src, rfl⟩⟩)⟩
  | recvfromFail => exact .inr ⟨rfl, .inr (.inr ⟨h.awaiting_iff.1 ha, .inl rfl⟩)⟩

/-- A host write to a register other than CMD leaves PHASE. -/
theorem writeReg_phase {r : Reg} {v : Word} (h : writeReg r v s = some t) :
    t.status.phase = s.status.phase := by
  rcases writeReg_cases h with ⟨-, rfl⟩ | ⟨-, rfl⟩ | ⟨-, -, -, rfl⟩ | ⟨-, rfl⟩ | ⟨-, -, rfl⟩ <;> rfl

/-- Settles O53: a reset, a command and an answer are the actions that can change PHASE. -/
theorem phaseFollowsTheTransitionTable : Obligations.PhaseFollowsTheTransitionTable := by
  intro s t _ h hs hne
  rcases step_next_cases hs with ⟨-, rfl⟩ | ⟨a, rest, hscript, hr⟩
  · exact absurd rfl hne
  refine ⟨a, rest, hscript, ?_⟩
  rcases runAction_cases hr with rfl | ⟨_, _, _, -, rfl⟩ | ⟨ha, rfl⟩ | ⟨ans, rfl, hp, rfl⟩ |
    ⟨w, rfl, -, rfl | ⟨i, hd, he⟩⟩ | ⟨_, _, v, -, -, ⟨r, hw⟩ | ⟨b, i, -, -, rfl⟩⟩
  · exact absurd rfl hne
  · exact absurd rfl hne
  · exact .inl ⟨ha, rfl⟩
  · rcases takeAnswer_phase_cases (h.withScript rest) hp with hk | ⟨ht, hc | hc | hc⟩
    · exact absurd hk hne
    · obtain ⟨hph, hw, rfl⟩ := hc
      exact .inr (.inl ⟨hph, ht, hw, rfl⟩)
    · obtain ⟨hph, hans⟩ := hc
      exact .inr (.inr (.inr (.inl ⟨hph, ht, by simpa using hans⟩)))
    · obtain ⟨hph, hans⟩ := hc
      exact .inr (.inr (.inr (.inr (.inr (.inl ⟨hph, ht, by simpa using hans⟩)))))
  · exact absurd rfl hne
  · have hword : HostAction.write 0x00000 4 w = issueCommand i := by
      rw [issueCommand_eq, encode_of_decode hd]
    rw [hword]
    rcases exec_phase_cases he with hk | ⟨hph, ⟨rfl, ht⟩ | ⟨rfl, ht⟩ | ⟨rfl, ht⟩⟩
    · exact absurd hk hne
    · exact .inr (.inr (.inl ⟨hph, ht, rfl⟩))
    · exact .inr (.inr (.inr (.inr (.inl ⟨hph, ht, rfl⟩))))
    · exact .inr (.inr (.inr (.inr (.inr (.inr ⟨hph, ht, rfl⟩)))))
  · exact absurd (writeReg_phase hw) hne
  · exact absurd rfl hne

end Sys2Proof.Machine
end

section
/-! What a legal access of the host port does (spec/20_memory.md R53 to R59). -/

namespace Sys2Proof.Machine

variable {s t : State} {addr : HostAddr} {size : Nat} {v : Word} {rest : List HostAction}

/-! ### Reads -/

/-- A read that reaches a register returns its value (R54). -/
theorem hostRead_of_locate_reg {r : Reg} (hl : locate addr size = some (.reg r)) :
    hostRead addr size s = observe (readReg r s) s := by
  rw [hostRead, hl]

/-- A read that reaches a byte of a buffer returns it (R55). -/
theorem hostRead_of_locate_byte {b : Buffer} {i : Nat} (hl : locate addr size = some (.byte b i)) :
    hostRead addr size s = observe ((bufByte b i s).setWidth 32) s := by
  rw [hostRead, hl]

/-- The step of a register read, busy or not. -/
theorem step_rd {r : Reg} (h : s.script = rd r :: rest) :
    step s = .next { s with script := rest, readData := s.readData ++ [readReg r s] } := by
  rw [step_read h, hostRead_of_locate_reg (locate_offset r)]
  rfl

/-- The step of a byte read, busy or not. -/
theorem step_rdb {b : Buffer} {i : Nat} (hi : i < b.size) (h : s.script = rdb b i :: rest) :
    step s = .next { s with
      script := rest
      readData := s.readData ++ [(s.mem.read (b.base + i)).setWidth 32] } := by
  rw [step_read h, hostRead_of_locate_byte (locate_byte b hi)]
  rfl

/-- Settles O12: a read reaches the register or byte it names, whatever the block is doing. -/
theorem readsReturnTheValueAndChangeNothing : Obligations.ReadsReturnTheValueAndChangeNothing :=
  ⟨fun _ _ _ _ h => step_rd h, fun _ _ _ _ _ hi h => step_rdb hi h⟩

/-! ### Writes -/

/-- A write while BUSY = 1 is a violation, wherever it goes (R59). -/
theorem step_write_of_busy (hb : s.status.busy = true) (h : s.script = .write addr size v :: rest) :
    step s = .next (violate (.write addr size v) { s with script := rest }) := by
  rw [step_store h (by simp [hb]), hostStore, if_pos hb]

/-- A write that reaches a place other than CMD, and is allowed there, has that place's effect. -/
theorem step_write_of_writePlace {p : Place} (hb : s.status.busy = false)
    (h : s.script = .write addr size v :: rest) (hl : locate addr size = some p)
    (hp : p ≠ .reg .cmd) (hw : writePlace p v { s with script := rest } = some t) :
    step s = .next t := by
  have hcmd : ¬ (addr = 0 ∧ size = 4) := by
    rw [← locate_eq_cmd_iff, hl]
    simpa using hp
  rw [step_store h fun hc => hcmd hc.2, hostStore, if_neg (by simp [hb]), hl, Option.bind_some, hw]

/-- The step of an allowed write to a register other than CMD. -/
theorem step_wr {r : Reg} (hr : r ≠ .cmd) (hb : s.status.busy = false)
    (h : s.script = wr r v :: rest) (hw : writeReg r v { s with script := rest } = some t) :
    step s = .next t :=
  step_write_of_writePlace hb h (locate_offset r) (by simpa using hr) hw

/-- The step of a byte write to a buffer that the host may write. -/
theorem step_wrb {b : Buffer} {i : Nat} {v : Byte} (hw : b.hostWritable = true) (hi : i < b.size)
    (hb : s.status.busy = false) (h : s.script = wrb b i v :: rest) :
    step s = .next (bufWrite b i [v] { s with script := rest }) := by
  refine step_write_of_writePlace hb h (locate_byte b hi) nofun ?_
  have hv : (v.setWidth 32).setWidth 8 = v := BitVec.setWidth_setWidth_of_le v (by decide)
  rw [writePlace, writeByte, if_pos hw, hv]

/-- Settles O13: writeReg stores the truncated value where R21, R28 and R36 allow the write. -/
theorem registerWritesStoreTheTruncatedValue : Obligations.RegisterWritesStoreTheTruncatedValue := by
  intro s v rest _ hb
  refine ⟨fun h => ?arg, fun h => ?dest, fun h => ?off, fun h hv => ?rxlen, fun h hv hp => ?plen⟩
  case arg => exact step_wr (by decide) hb h rfl
  case dest => exact step_wr (by decide) hb h rfl
  case off => exact step_wr (by decide) hb h rfl
  case rxlen => exact step_wr (by decide) hb h (if_pos hv)
  case plen => exact step_wr (by decide) hb h (if_pos ⟨hp, hv⟩)

/-- What memory holds after one byte was written into a buffer. -/
theorem read_bufWrite_singleton (b : Buffer) (i : Nat) (v : Byte) (s : State) (a : Nat) :
    (bufWrite b i [v] s).mem.read a = if a = b.base + i then v else s.mem.read a := by
  rw [bufWrite_mem, Memory.writeBytes, Memory.writeBytes]
  by_cases ha : a = b.base + i
  · rw [if_pos ha, ha, Memory.read_write_same]
  · rw [if_neg ha, Memory.read_write_other _ _ (Ne.symm ha)]

/-- Settles O14: the host may write PAYLOAD and RXBUF, and the write stores one byte. -/
theorem byteWritesStoreOneByte : Obligations.ByteWritesStoreOneByte := by
  intro s b i v rest _ hb hbuf hi h
  have hw : b.hostWritable = true := by
    rcases hbuf with rfl | rfl <;> rfl
  exact ⟨_, step_wrb hw hi hb h, rfl, read_bufWrite_singleton b i v _⟩

/-- Settles O15: BUSY stops no read and every write. -/
theorem busyBlockAnswersReadsAndRefusesWrites : Obligations.BusyBlockAnswersReadsAndRefusesWrites := by
  intro s rest hclean hb
  refine ⟨fun r h => step_rd h, fun b i hi h => step_rdb hi h, fun addr size v h => ?_⟩
  have hv : s.violations = [] := hclean
  rw [step_write_of_busy hb h, violate, hv, List.nil_append]

end Sys2Proof.Machine
end

section
/-! Which step makes a request to the host (spec/20_memory.md R65, spec/42_session.md R120). -/

namespace Sys2Proof.Machine

variable {s t : State}

/-- The requests made so far are those of the first state and at most one more. -/
def AtMostOneRequest (s t : State) : Prop :=
  t.outbox = s.outbox ∨ ∃ r, t.outbox = s.outbox ++ [r]

/-- The issue of a command makes at most one request: CONSTRUCT, SEND and RECV ask, CLOSE notifies. -/
theorem exec_atMostOneRequest {i : Instr} (h : exec i s = .next t) : AtMostOneRequest s t := by
  rcases exec_cases h with ⟨e, -, rfl⟩ | ⟨v, -, rfl⟩ | ⟨ty, -, rfl⟩ | ⟨-, -, rfl⟩ | ⟨v, -, -, rfl⟩ |
    ⟨-, -, rfl⟩ | ⟨plp, id, -, -, -, rfl⟩ | ⟨-, -, rfl⟩ | ⟨-, -, rfl⟩ | ⟨-, -, rfl⟩
  · exact .inl rfl
  · exact .inl rfl
  · exact .inl rfl
  · exact .inl rfl
  · exact .inl rfl
  · exact .inl rfl
  · exact .inr ⟨_, rfl⟩
  · exact .inr ⟨.sendto (txView (prepareRequest s)) s.saddr, by simp⟩
  · exact .inr ⟨_, rfl⟩
  · exact .inr ⟨_, rfl⟩

/-- The end of a RECV that fails makes no request. -/
@[simp] theorem recvFail_outbox (e : ErrorCode) (s : State) : (recvFail e s).outbox = s.outbox := rfl

/-- A datagram makes at most one request: the next one, where it is discarded (R133). -/
theorem recvDatagram_atMostOneRequest (d : List Byte) (src : Word) (s : State) :
    AtMostOneRequest s (recvDatagram d src s) := by
  rcases recvDatagram_cases d src s with ⟨-, -, he⟩ | he | ⟨-, he⟩ | ⟨m, -, -, -, he⟩ <;> rw [he]
  · exact .inl (by simp)
  · exact .inl (by simp)
  · exact .inr ⟨_, rfl⟩
  · exact .inl (by simp)

/-- An answer makes at most one request: a resolved address asks for the socket, a datagram perhaps for the next. -/
theorem takeAnswer_atMostOneRequest (ans : HostAnswer) (s : State) :
    AtMostOneRequest s (takeAnswer ans s) := by
  cases ans with
  | resolveOk addr => exact .inr ⟨_, rfl⟩
  | recvfromOk d src => exact recvDatagram_atMostOneRequest d src s
  | resolveFail | socketOk | socketFail | sendtoOk | sendtoFail | recvfromFail => exact .inl rfl

/-- A host write to a register other than CMD makes no request. -/
theorem writeReg_outbox {r : Reg} {v : Word} (h : writeReg r v s = some t) : t.outbox = s.outbox := by
  rcases writeReg_cases h with ⟨-, rfl⟩ | ⟨-, rfl⟩ | ⟨-, -, -, rfl⟩ | ⟨-, rfl⟩ | ⟨-, -, rfl⟩ <;> rfl

/-- A host action makes no request, or at most one as the issue of a command with BUSY = 0 or as the answer to the
pending request. -/
theorem runAction_request_cases {a : HostAction} (h : runAction a s = .next t) :
    t.outbox = s.outbox ∨
    (AtMostOneRequest s t ∧ ((s.status.busy = false ∧ ∃ w, a = .write 0x00000 4 w) ∨
      ∃ ans, a = .answer ans ∧ AnswersPending ans s)) := by
  rcases runAction_cases h with rfl | ⟨_, _, _, -, rfl⟩ | ⟨-, rfl⟩ | ⟨ans, ha, hp, rfl⟩ |
    ⟨w, ha, hb, rfl | ⟨i, -, he⟩⟩ | ⟨_, _, v, -, -, ⟨r, hw⟩ | ⟨b, i, -, -, rfl⟩⟩
  · exact .inl rfl
  · exact .inl rfl
  · exact .inl rfl
  · exact .inr ⟨takeAnswer_atMostOneRequest ans s, .inr ⟨ans, ha, hp⟩⟩
  · exact .inl rfl
  · have hone : AtMostOneRequest (recordIssue w s) t := exec_atMostOneRequest he
    exact .inr ⟨hone, .inl ⟨hb, w, ha⟩⟩
  · exact .inl (writeReg_outbox hw)
  · exact .inl rfl

/-- An answer is pending only while the block waits. -/
theorem AnswersPending.hstep_ne_idle {ans : HostAnswer} (h : AnswersPending ans s) :
    s.hstep ≠ .idle := by
  intro hi
  cases ans <;> simp [AnswersPending, hi] at h

/-- Whether an answer is pending does not depend on the actions to come. -/
theorem answersPending_withScript {ans : HostAnswer} {rest : List HostAction} :
    AnswersPending ans { s with script := rest } ↔ AnswersPending ans s := by
  cases ans <;> rfl

/-- Settles O58: only the issue of a command and the pending answer make a request, and a block that waits for an
answer is busy. -/
theorem atMostOneRequestIsPending : Obligations.AtMostOneRequestIsPending := by
  intro s t _ hinv hs
  rcases step_next_cases hs with ⟨-, rfl⟩ | ⟨a, rest, hscript, hr⟩
  · exact .inl rfl
  rcases runAction_request_cases hr with hnone | ⟨hnone | ⟨r, hone⟩, hcause⟩
  · exact .inl hnone
  · exact .inl hnone
  refine .inr ⟨r, hone, ?_⟩
  rcases hcause with ⟨hb, w, rfl⟩ | ⟨ans, rfl, hp⟩
  · exact .inl ⟨hb, w, rest, hscript⟩
  · rw [answersPending_withScript] at hp
    exact .inr ⟨hinv.busy hp.hstep_ne_idle, ans, rest, hscript, hp⟩

end Sys2Proof.Machine
end

section
/-! Decoding and the opcode table: every command comes back from its word, and the rows of the table that a word
matches (spec/30_encoding.md R70 to R76). -/

namespace Sys2Proof

/-! ### The decoder, by the rows of R73 -/

section DecodeRow

variable {w : Word}

/-- The row ENCODE: TYPE = B. -/
theorem decode_of_encodeRow (h : opField w = 2#4 ∧ rsvField w = 0#4 ∧ hField w = 0#16) :
    decode w = .ok (.encode (bField w)) := by
  obtain ⟨hop, hrsv, hh⟩ := h
  simp [decode, hop, hrsv, hh]

/-- The row CONSTRUCT: FAM, PLP and ID. -/
theorem decode_of_constructRow
    (h : opField w = 6#4 ∧ rsvField w = 0#4 ∧ w.extractLsb' 10 6 = 0#6) :
    decode w = .ok (.construct (famField w) (plpField w) (hField w)) := by
  obtain ⟨hop, hrsv, hb⟩ := h
  simp [decode, hop, hrsv, hb]

/-- The rows CSUM and DECODE. -/
theorem exists_decode_of_onlySrcRow {op : BitVec 4} (hrow : op = 1#4 ∨ op = 4#4)
    (h : opField w = op ∧ rsvField w = 0#4 ∧ w.extractLsb' 9 7 = 0#7 ∧ hField w = 0#16) :
    ∃ i, decode w = .ok i := by
  obtain ⟨hop, hrsv, hb, hh⟩ := h
  rcases hrow with rfl | rfl <;> simp [decode, onlySrc, hop, hrsv, hb, hh]

/-- The rows PATCH, STRIP, SEND, RECV and CLOSE. -/
theorem exists_decode_of_noFieldsRow {op : BitVec 4}
    (hrow : op = 3#4 ∨ op = 5#4 ∨ op = 7#4 ∨ op = 8#4 ∨ op = 9#4)
    (h : opField w = op ∧ rsvField w = 0#4 ∧ bField w = 0#8 ∧ hField w = 0#16) :
    ∃ i, decode w = .ok i := by
  obtain ⟨hop, hrsv, hb, hh⟩ := h
  rcases hrow with rfl | rfl | rfl | rfl | rfl <;> simp [decode, noFields, hop, hrsv, hb, hh]

/-- A word that matches a row of the table decodes. -/
theorem exists_decode_of_row {r : OpcodeRow} (hr : r ∈ opcodeRows) (h : w &&& r.mask = r.pattern) :
    ∃ i, decode w = .ok i := by
  simp only [opcodeRows, List.mem_cons, List.not_mem_nil, or_false] at hr
  rcases hr with rfl | rfl | rfl | rfl | rfl | rfl | rfl | rfl | rfl
  · exact exists_decode_of_onlySrcRow (by decide) ((onlySrc_row w _ 1#4 rfl).1 h)
  · exact ⟨_, decode_of_encodeRow ((encode_row w).1 h)⟩
  · exact exists_decode_of_noFieldsRow (by decide) ((noFields_row w _ 3#4 rfl).1 h)
  · exact exists_decode_of_onlySrcRow (by decide) ((onlySrc_row w _ 4#4 rfl).1 h)
  · exact exists_decode_of_noFieldsRow (by decide) ((noFields_row w _ 5#4 rfl).1 h)
  · exact ⟨_, decode_of_constructRow ((construct_row w).1 h)⟩
  · exact exists_decode_of_noFieldsRow (by decide) ((noFields_row w _ 7#4 rfl).1 h)
  · exact exists_decode_of_noFieldsRow (by decide) ((noFields_row w _ 8#4 rfl).1 h)
  · exact exists_decode_of_noFieldsRow (by decide) ((noFields_row w _ 9#4 rfl).1 h)

end DecodeRow

/-! ### Every command comes back from its word -/

/-- A field within B, read from the packed word. -/
theorem extractLsb'_packWord_b (h : Half) (b : Byte) (op : BitVec 4) {k n : Nat} (hn : k + n ≤ 8) :
    (packWord h b op).extractLsb' (8 + k) n = b.extractLsb' k n := by
  apply BitVec.eq_of_getLsbD_eq
  intro i hi
  rw [BitVec.getLsbD_extractLsb', BitVec.getLsbD_extractLsb', Nat.add_assoc,
    getLsbD_packWord_b h b op (by omega)]

theorem decode_encode_encode (ty : Byte) : decode (encode (.encode ty)) = .ok (.encode ty) := by
  rw [encode, decode_of_encodeRow ⟨opField_packWord _ _ _, rsvField_packWord _ _ _,
    hField_packWord _ _ _⟩, bField_packWord]

section Construct

variable (fam : Family) (plp : Bool) (id : Half)

/-- CONSTRUCT packs B[7:2] = 0. -/
theorem fixedBits_encode_construct :
    (encode (.construct fam plp id)).extractLsb' 10 6 = 0#6 := by
  rw [encode, extractLsb'_packWord_b (k := 2) _ _ _ (by decide)]
  exact BitVec.extractLsb'_append_eq_left

theorem famField_encode_construct : famField (encode (.construct fam plp id)) = fam := by
  rw [famField, encode, getLsbD_packWord_b (i := 0) _ _ _ (by decide)]
  cases plp <;> cases fam <;> rfl

theorem plpField_encode_construct : plpField (encode (.construct fam plp id)) = plp := by
  rw [plpField, encode, getLsbD_packWord_b (i := 1) _ _ _ (by decide)]
  cases plp <;> cases fam <;> rfl

theorem decode_encode_construct :
    decode (encode (.construct fam plp id)) = .ok (.construct fam plp id) := by
  have hop : opField (encode (.construct fam plp id)) = 6#4 := opField_packWord _ _ _
  have hrsv : rsvField (encode (.construct fam plp id)) = 0#4 := rsvField_packWord _ _ _
  have hid : hField (encode (.construct fam plp id)) = id := hField_packWord _ _ _
  rw [decode_of_constructRow ⟨hop, hrsv, fixedBits_encode_construct fam plp id⟩,
    famField_encode_construct, plpField_encode_construct, hid]

end Construct

/-- Decoding the word of a command gives the command back. The words of the commands other than ENCODE and CONSTRUCT
are nine constants. -/
theorem decode_encode (i : Instr) : decode (encode i) = .ok i := by
  cases i with
  | encode ty => exact decode_encode_encode ty
  | construct fam plp id => exact decode_encode_construct fam plp id
  | csum src | decode src => cases src <;> rfl
  | patch | strip | send | recv | close => rfl

/-- Settles O1: each field of the packed word is read back as it was packed. -/
theorem decodeOfEncodeIsTheCommand : Obligations.DecodeOfEncodeIsTheCommand :=
  fun i _ => decode_encode i

/-- Settles O2: a legal word is its fields, packed. -/
theorem encodeOfDecodeIsTheWord : Obligations.EncodeOfDecodeIsTheWord :=
  fun _ _ => encode_of_decode

/-! ### The rows a word matches -/

/-- The word of every command matches the row that bears the command's mnemonic. -/
theorem rowMatch (i : Instr) : Laws.RowMatch.Statement i :=
  match i with
  | .csum src => Laws.RowMatch.csum src
  | .encode ty => Laws.RowMatch.encode ty
  | .patch => Laws.RowMatch.patch
  | .decode src => Laws.RowMatch.decode src
  | .strip => Laws.RowMatch.strip
  | .construct fam plp id => Laws.RowMatch.construct fam plp id
  | .send => Laws.RowMatch.send
  | .recv => Laws.RowMatch.recv
  | .close => Laws.RowMatch.close

/-- A legal word matches its command's row, since it is its command's word. -/
theorem row_of_decode {w : Word} {i : Instr} (h : decode w = .ok i) :
    ∃ r ∈ opcodeRows, r.mnemonic = i.mnemonic ∧ w &&& r.mask = r.pattern := by
  obtain ⟨r, hr, hname, hmatch⟩ := rowMatch i
  rw [encode_of_decode h] at hmatch
  exact ⟨r, hr, hname, beq_iff_eq.1 hmatch⟩

theorem legalWord_iff {w : Word} :
    legalWord w = true ↔ ∃ r ∈ opcodeRows, w &&& r.mask = r.pattern := by
  simp [legalWord, OpcodeRow.matchesWord]

/-- A word is legal exactly when it decodes. -/
theorem exists_decode_iff_legalWord {w : Word} : (∃ i, decode w = .ok i) ↔ legalWord w = true := by
  rw [legalWord_iff]
  constructor
  · rintro ⟨i, hi⟩
    obtain ⟨r, hr, -, hmatch⟩ := row_of_decode hi
    exact ⟨r, hr, hmatch⟩
  · rintro ⟨r, hr, hmatch⟩
    exact exists_decode_of_row hr hmatch

theorem opField_and (v w : Word) : opField (v &&& w) = opField v &&& opField w :=
  BitVec.extractLsb'_and

/-- The mask of every row covers OP. -/
theorem opField_mask : ∀ r ∈ opcodeRows, opField r.mask = BitVec.allOnes 4 := by decide

/-- No two rows have the same OP. -/
theorem row_eq_of_opField : ∀ r₁ ∈ opcodeRows, ∀ r₂ ∈ opcodeRows,
    opField r₁.pattern = opField r₂.pattern → r₁ = r₂ := by decide

/-- A word has the OP of every row that it matches. -/
theorem opField_of_row {w : Word} {r : OpcodeRow} (hr : r ∈ opcodeRows)
    (h : w &&& r.mask = r.pattern) : opField w = opField r.pattern := by
  rw [← h, opField_and, opField_mask r hr, BitVec.and_allOnes]

/-- Settles O3: a legal word is its command's word, which matches that command's row, and the rows differ in OP. -/
theorem decodableWordsAreTheTableRows : Obligations.DecodableWordsAreTheTableRows := by
  intro w
  refine ⟨exists_decode_iff_legalWord, fun _ => row_of_decode, fun r₁ h₁ r₂ h₂ hm₁ hm₂ => ?_⟩
  exact row_eq_of_opField r₁ h₁ r₂ h₂ ((opField_of_row h₁ hm₁).symm.trans (opField_of_row h₂ hm₂))

/-- Settles O4: the decoder, run on each of the fifteen words. -/
theorem tableWordsDecode : Obligations.TableWordsDecode := by
  unfold Obligations.TableWordsDecode
  decide

end Sys2Proof
end

section
/-! What Checksum(s) computes, and how it validates a message (spec/40_checksum.md R90 to R98). -/

namespace Sys2Proof.Machine

/-! ### The fold loop -/

/-- The fold loop, given n passes, takes m ≤ n of them, each with acc[31:16] ≠ 0. -/
theorem exists_foldLoop_eq_iterate (n : Nat) (acc : Word) :
    ∃ m ≤ n, foldLoop n acc = foldPass^[m] acc ∧
      ∀ k < m, (foldPass^[k] acc).extractLsb' 16 16 ≠ 0 := by
  induction n generalizing acc with
  | zero => exact ⟨0, le_rfl, rfl, by simp⟩
  | succ n ih =>
    by_cases h : acc.extractLsb' 16 16 = 0
    · exact ⟨0, Nat.zero_le _, if_pos h, by simp⟩
    · obtain ⟨m, hm, hloop, hruns⟩ := ih (foldPass acc)
      refine ⟨m + 1, Nat.succ_le_succ hm, (if_neg h).trans hloop, fun k hk => ?_⟩
      cases k with
      | zero => exact h
      | succ k => exact hruns k (Nat.lt_of_succ_lt_succ hk)

/-- After two passes the loop has ended (R93). -/
theorem foldLoop_two_ended (acc : Word) : (foldLoop 2 acc).extractLsb' 16 16 = 0 := by
  rw [acc_hi_eq_zero_iff, foldLoop_two_toNat]
  exact folded_lt _

theorem foldPass_mod (acc : Word) : (foldPass acc).toNat % 65535 = acc.toNat % 65535 := by
  rw [← folded_mod, folded_foldPass, folded_mod]

theorem foldPass_eq_zero_iff (acc : Word) : foldPass acc = 0 ↔ acc = 0 := by
  have h : (foldPass acc).toNat = 0 ↔ acc.toNat = 0 := by
    rw [← folded_eq_zero_iff, folded_foldPass, folded_eq_zero_iff]
  rwa [← BitVec.toNat_inj, ← BitVec.toNat_inj]

/-! ### The sum over the counted words -/

theorem length_countedWords (ws : List Half) :
    (countedWords ws).length = if 2 ≤ ws.length then ws.length - 1 else ws.length := by
  match ws with
  | [] => rfl
  | [_] => rfl
  | _ :: _ :: _ => simp [countedWords]

theorem sumWords_counted_toNat {bs : List Byte} (h : bs.length ≤ 65535) :
    (sumWords (countedWords (wordsOf bs))).toNat = countedSum bs := by
  have hlt := countedSum_lt bs h
  rw [countedSum_eq] at hlt ⊢
  exact sumWords_toNat _ hlt

theorem ofNat_countedSum {bs : List Byte} (h : bs.length ≤ 65535) :
    BitVec.ofNat 32 (countedSum bs) = sumWords (countedWords (wordsOf bs)) := by
  rw [← sumWords_counted_toNat h, BitVec.ofNat_toNat, BitVec.setWidth_eq]

/-- Settles O24, with the loop's own number of passes. -/
theorem checksumFollowsThePseudocode : Obligations.ChecksumFollowsThePseudocode := by
  intro bs h
  rw [ofNat_countedSum h]
  obtain ⟨n, -, hloop, hruns⟩ := exists_foldLoop_eq_iterate 2 (sumWords (countedWords (wordsOf bs)))
  refine ⟨n, ?_, hruns, ?_⟩ <;> rw [← hloop]
  · exact foldLoop_two_ended _
  · rfl

/-! ### The residue -/

theorem length_countedWords_wordsOf_le {bs : List Byte} (h : bs.length ≤ 65535) :
    (countedWords (wordsOf bs)).length ≤ 32766 := by
  rw [length_countedWords, length_wordsOf]
  split <;> omega

theorem countedSum_le {bs : List Byte} (h : bs.length ≤ 65535) : countedSum bs ≤ 0x7FFD8002 := by
  have hlen := length_countedWords_wordsOf_le h
  have htotal := wordTotal_le (countedWords (wordsOf bs))
  rw [countedSum_eq]
  omega

/-- Checksum(s) is 0xFFFF exactly at a sum of 0 (R93). -/
theorem checksum_eq_allOnes_iff {bs : List Byte} (h : bs.length ≤ 65535) :
    checksum bs = 0xFFFF ↔ countedSum bs = 0 := by
  have hF := folded_lt (countedSum bs)
  have hones : (0xFFFF : Half).toNat = 65535 := rfl
  rw [← BitVec.toNat_inj, checksum_toNat bs h, hones, ← folded_eq_zero_iff]
  omega

/-- The complement of Checksum(s) has the residue of the sum (R93). -/
theorem complement_checksum_mod {bs : List Byte} (h : bs.length ≤ 65535) :
    (65535 - (checksum bs).toNat) % 65535 = countedSum bs % 65535 := by
  have hF := folded_lt (countedSum bs)
  rw [checksum_toNat bs h, Nat.sub_sub_self (by omega), folded_mod]

/-- Settles O25: the bounds on the passes follow from the one on the sum. -/
theorem checksumIsTheComplementOfTheResidue : Obligations.ChecksumIsTheComplementOfTheResidue := by
  refine ⟨fun acc => ⟨foldPass_mod acc, foldPass_eq_zero_iff acc⟩, fun bs h => ?_⟩
  have hwords : (wordsOf bs).length ≤ 32767 := by
    rw [length_wordsOf]
    omega
  have hsum := sumWords_counted_toNat h
  have hle := countedSum_le h
  have hpass₁ := foldPass_toNat (sumWords (countedWords (wordsOf bs)))
  have hpass₂ := foldPass_toNat (foldPass (sumWords (countedWords (wordsOf bs))))
  refine ⟨hwords, length_countedWords_wordsOf_le h, hle, hsum, by omega, by omega,
    foldLoop_two_ended _, (checksum_eq_allOnes_iff h).2, fun hpos => ⟨?_, complement_checksum_mod h⟩⟩
  rw [Ne, checksum_eq_allOnes_iff h]
  exact Nat.pos_iff_ne_zero.1 hpos

/-! ### The checksum field and the full sum -/

/-- Bytes 2 and 3 do not enter the sum (R94). -/
theorem checksum_field (b0 b1 b2 b3 c2 c3 : Byte) (bs : List Byte) :
    checksum (b0 :: b1 :: b2 :: b3 :: bs) = checksum (b0 :: b1 :: c2 :: c3 :: bs) := rfl

/-- The full sum of a message is its counted sum and its checksum field. -/
theorem fullSum_eq_countedSum_add (b0 b1 b2 b3 : Byte) (bs : List Byte) :
    fullSum (b0 :: b1 :: b2 :: b3 :: bs) =
      countedSum (b0 :: b1 :: b2 :: b3 :: bs) + (be16 b2 b3).toNat := by
  rw [fullSum_eq, countedSum_eq]
  simp only [wordsOf, countedWords, wordTotal_cons]
  omega

theorem foldedSum_wordsOf_toNat {bs : List Byte} (h : bs.length ≤ 65535) :
    (foldedSum (wordsOf bs)).toNat = folded (fullSum bs) := by
  have hlen := length_wordsOf bs
  have htotal := wordTotal_le (wordsOf bs)
  rw [fullSum_eq, foldedSum_toNat _ (by omega)]

/-- A sum n and a field f fold to 0xFFFF exactly when f is the complement of n's fold, or both are 0xFFFF. -/
theorem folded_add_eq_allOnes_iff (n : Nat) {f : Nat} (hf : f < 65536) :
    folded (n + f) = 65535 ↔ 65535 - folded n = f ∨ (folded n = 65535 ∧ f = 65535) := by
  unfold folded
  split <;> split <;> omega

/-- Settles O30. -/
theorem validationConventionsDifferInOneCase : Obligations.ValidationConventionsDifferInOneCase := by
  intro b0 b1 b2 b3 bs h m
  have hm : m.length ≤ 65535 := h
  rw [← BitVec.toNat_inj, ← BitVec.toNat_inj, ← BitVec.toNat_inj, foldedSum_wordsOf_toNat hm,
    checksum_toNat m hm, fullSum_eq_countedSum_add]
  exact folded_add_eq_allOnes_iff _ (be16 b2 b3).isLt

/-- Settles O27: the full-sum check accepts what the convention of R96 accepts. -/
theorem fullSumOfACheckedMessageIsAllOnes : Obligations.FullSumOfACheckedMessageIsAllOnes := by
  intro b0 b1 b2 b3 bs h hfield
  have hT := (validationConventionsDifferInOneCase b0 b1 b2 b3 bs h).2 (.inl hfield.symm)
  exact ⟨hT, by rw [hT]; decide⟩

/-- Settles O26: neither the old content of the field nor the patched one enters the sum. -/
theorem checksumIgnoresItsOwnField : Obligations.ChecksumIgnoresItsOwnField :=
  ⟨checksum_field, fun b0 b1 b2 b3 bs => checksum_field b0 b1 _ _ b2 b3 bs, fun _ _ _ _ => rfl⟩

/-! ### Words by index, and the odd tail -/

theorem getElem?_wordsOf (bs : List Byte) (k : Nat) : (wordsOf bs)[k]? =
    if k < bs.length / 2 then some (be16 (bs.getD (2 * k) 0) (bs.getD (2 * k + 1) 0)) else none := by
  rw [wordsOf_eq_map, List.getElem?_map]
  split
  next h => rw [List.getElem?_range h, Option.map_some]
  next h => rw [List.getElem?_eq_none (by simpa using h), Option.map_none]

/-- A byte after an even number of bytes belongs to no word (R91). -/
theorem wordsOf_append_singleton : ∀ {bs : List Byte} (b : Byte), bs.length % 2 = 0 →
    wordsOf (bs ++ [b]) = wordsOf bs
  | [], _, _ => rfl
  | h :: l :: bs, b, heven => by
    rw [List.length_cons, List.length_cons, Nat.add_assoc, Nat.add_mod_right] at heven
    simp only [List.cons_append, wordsOf, wordsOf_append_singleton b heven]

theorem checksum_append_singleton {bs : List Byte} (b : Byte) (h : bs.length % 2 = 0) :
    checksum (bs ++ [b]) = checksum bs := by
  rw [checksum, checksum, wordsOf_append_singleton b h]

theorem checksum_nil : checksum [] = 0xFFFF := by decide

/-- A single word is its own folded sum. -/
theorem checksum_pair (b0 b1 : Byte) : checksum [b0, b1] = ~~~ be16 b0 b1 := by
  have hsum : countedSum [b0, b1] = (be16 b0 b1).toNat := by
    rw [countedSum_eq]
    rfl
  rw [← BitVec.toNat_inj, checksum_toNat _ (by simp), complement_toNat, hsum,
    folded_of_lt (be16 b0 b1).isLt]

/-- Settles O28: the short sequences of odd length have an odd tail too. -/
theorem trailingOddByteIsDiscarded : Obligations.TrailingOddByteIsDiscarded :=
  ⟨getElem?_wordsOf,
    fun b0 b1 b2 => ⟨checksum_pair b0 b1,
      (checksum_append_singleton (bs := [b0, b1]) b2 (by simp)).trans (checksum_pair b0 b1)⟩,
    fun _ => checksum_append_singleton, checksum_nil,
    fun b => (checksum_append_singleton (bs := []) b (by simp)).trans checksum_nil⟩

/-- A padded byte is below the modulus 0xFFFF, so it changes the residue unless it is 0. -/
theorem folded_add_padded_eq_iff (n : Nat) (b : Byte) :
    folded (n + 256 * b.toNat) = folded n ↔ b = 0 := by
  have hb := b.isLt
  constructor
  · intro h
    have hmod := folded_mod (n + 256 * b.toNat)
    rw [h, folded_mod] at hmod
    have hzero : b.toNat = 0 := by omega
    exact BitVec.eq_of_toNat_eq hzero
  · rintro rfl
    rfl

/-- Settles O29. -/
theorem paddingAgreesExactlyOnAZeroTail : Obligations.PaddingAgreesExactlyOnAZeroTail := by
  intro bs b heven hlen
  refine ⟨folded_add_padded_eq_iff _ b, ?_⟩
  rw [checksum_append_singleton b heven, checksum_toNat bs (by omega)]

/-! ### The command CSUM -/

/-- Settles O31. -/
theorem csumWritesTheChecksumOfItsView : Obligations.CsumWritesTheChecksumOfItsView :=
  fun s v _ => ⟨exec_csum v s, fun hempty => hempty ▸ checksum_nil⟩

end Sys2Proof.Machine
end

section
/-! The packet codec (spec/41_codec.md): what ENCODE, PATCH, DECODE and STRIP write and leave (R100 to R110). -/

namespace Sys2Proof.Machine

variable {s : State} {ty : Byte} {id sq : Half}

/-! ### ENCODE -/

/-- The header bytes of an encoded message. -/
theorem read_encodeInto_header {k : Nat} (hk : k < 8) :
    (encodeInto ty id sq s).mem.read (0x20000 + k) = (echoHeader ty id sq).getD k 0 := by
  rw [read_encodeInto, if_pos (by omega), Nat.add_sub_cancel_left, getD_message_header _ _ _ _ hk]

/-- The data of an encoded message is the payload. -/
theorem read_encodeInto_payload {k : Nat} (hk : k < s.plen.toNat) :
    (encodeInto ty id sq s).mem.read (0x20008 + k) = s.mem.read (0x10000 + k) := by
  rw [read_encodeInto, if_pos (by omega), show 0x20008 + k - 0x20000 = 8 + k by omega,
    getD_message_payload _ _ _ hk]

/-- No byte outside the message is written (R101). -/
theorem read_encodeInto_outside {a : Nat} (ha : a < 0x20000 ∨ 0x20008 + s.plen.toNat ≤ a) :
    (encodeInto ty id sq s).mem.read a = s.mem.read a := by
  rw [read_encodeInto, if_neg (by omega)]

/-- Settles O32: the message is the header and the payload, read byte by byte. -/
theorem encodeBuildsTheMessage : Obligations.EncodeBuildsTheMessage := by
  intro s ty _ hp
  have header : ∀ k < 8, (encodeInto ty (argHigh s) (argLow s) s).mem.read (0x20000 + k) =
      (echoHeader ty (argHigh s) (argLow s)).getD k 0 := fun _ => read_encodeInto_header
  refine ⟨_, exec_encode ty s, rfl, txlen_encodeInto ty (argHigh s) (argLow s) hp,
    header 0 (by decide), header 1 (by decide), header 2 (by decide), header 3 (by decide), ?_, ?_,
    fun _ => read_encodeInto_payload, fun _ => read_encodeInto_outside⟩
  · exact (congrArg₂ be16 (header 4 (by decide)) (header 5 (by decide))).trans (be16_hi8_lo8 _)
  · exact (congrArg₂ be16 (header 6 (by decide)) (header 7 (by decide))).trans (be16_hi8_lo8 _)

/-! ### PATCH -/

/-- The checksum field after the patch is CSR. -/
theorem be16_read_patchChecksum (s : State) :
    be16 ((patchChecksum s).mem.read 0x20002) ((patchChecksum s).mem.read 0x20003) = s.csr := by
  rw [read_patchChecksum, read_patchChecksum]
  exact be16_hi8_lo8 s.csr

/-- The patch writes message bytes 2 and 3 only. -/
theorem read_patchChecksum_other {a : Nat} (h2 : a ≠ 0x20002) (h3 : a ≠ 0x20003) :
    (patchChecksum s).mem.read a = s.mem.read a := by
  rw [read_patchChecksum, if_neg h2, if_neg h3]

/-- A second patch writes what the first one wrote. -/
theorem read_patchChecksum_twice (s : State) (a : Nat) :
    (patchChecksum (patchChecksum s)).mem.read a = (patchChecksum s).mem.read a := by
  rw [read_patchChecksum (patchChecksum s), read_patchChecksum, patchChecksum_csr]
  split_ifs <;> rfl

/-- Settles O33. -/
theorem patchWritesTheChecksumField : Obligations.PatchWritesTheChecksumField := by
  refine fun s _ => ⟨fun hlen => ?_, exec_patch_short⟩
  exact ⟨_, exec_patch hlen, rfl, be16_read_patchChecksum s, fun _ => read_patchChecksum_other, _,
    exec_patch hlen, read_patchChecksum_twice s⟩

/-! ### DECODE -/

/-- Lengths are 16-bit registers, so a view fits in one. -/
theorem length_viewSlice_lt (v : View) (s : State) : (viewSlice v s).length < 65536 := by
  have htx := s.txlen.isLt
  have hrx := s.rxlen.isLt
  cases v <;> rw [viewSlice, length_bufferSlice] <;> omega

/-- The data of a decoded message, in RDATA (R104). -/
theorem read_writeReply_data {m : List Byte} {i : Nat} (hi : i < m.length - 8) :
    (writeReply m s).mem.read (0x40000 + i) = m.getD (8 + i) 0 := by
  rw [read_writeReply, if_pos (by omega), Nat.add_sub_cancel_left]

/-- Decoding writes no byte outside the copy of the data. -/
theorem read_writeReply_outside {m : List Byte} {a : Nat}
    (ha : a < 0x40000 ∨ 0x40000 + (m.length - 8) ≤ a) :
    (writeReply m s).mem.read a = s.mem.read a := by
  rw [read_writeReply, if_neg (by omega)]

/-- Settles O34. -/
theorem decodeParsesTheView : Obligations.DecodeParsesTheView :=
  fun s v _ h8 => ⟨_, exec_decode h8, rfl, rdlen_writeReply s (length_viewSlice_lt v s),
    fun _ => read_writeReply_data, fun _ => read_writeReply_outside⟩

/-- DECODE of a view that spells the message m. -/
theorem exec_decode_of_viewSlice {v : View} {m : List Byte} (hview : viewSlice v s = m)
    (h8 : 8 ≤ m.length) : exec (.decode v) s = .next (complete .none (writeReply m s)) := by
  subst hview
  exact exec_decode h8

/-- Settles O35. -/
theorem decodeOfAShortViewFails : Obligations.DecodeOfAShortViewFails :=
  fun _ _ _ hshort => exec_decode_short hshort

/-! ### STRIP -/

/-- R110's offset as a number. -/
theorem headerLength_eq_ofNat (b : Byte) : headerLength b = BitVec.ofNat 16 (4 * (b.toNat % 16)) := by
  rw [← headerLength_toNat, BitVec.ofNat_toNat, BitVec.setWidth_eq]

/-- Settles O36. -/
theorem stripComputesTheOffset : Obligations.StripComputesTheOffset := by
  refine fun s _ => ⟨fun hne => ?_, exec_strip_empty⟩
  rw [← headerLength_eq_ofNat]
  exact exec_strip hne

/-- A slice is the sequence that its bytes spell. -/
theorem bufferSlice_eq_of_read {b : Buffer} {i n : Nat} {m : List Byte} (hn : n = m.length)
    (h : ∀ k < m.length, s.mem.read (b.base + (i + k)) = m.getD k 0) : bufferSlice b i n s = m := by
  subst hn
  refine List.ext_getElem (length_bufferSlice _ _ _ _) fun k _ hk => ?_
  rw [← List.getD_eq_getElem _ 0, getD_bufferSlice b i s hk, h k hk, List.getD_eq_getElem]

/-- RXV is the message that stands at OFF and ends at RXLEN. -/
theorem viewSlice_rx_eq_of_read {m : List Byte} (hlen : s.rxlen.toNat = s.off.toNat + m.length)
    (hread : ∀ k < m.length, s.mem.read (0x30000 + s.off.toNat + k) = m.getD k 0) :
    viewSlice .rx s = m :=
  bufferSlice_eq_of_read (Nat.sub_eq_of_eq_add' hlen) fun k hk => by
    rw [← Nat.add_assoc]
    exact hread k hk

/-- Settles O37: OFF is the header's length, so RXV starts where the message does. -/
theorem stripLocatesTheMessage : Obligations.StripLocatesTheMessage := by
  intro s m _ h8 hlen hread
  have hne : s.rxlen ≠ 0 := by
    intro h0
    have h0' : s.rxlen.toNat = 0 := congrArg BitVec.toNat h0
    omega
  rw [← headerLength_toNat] at hlen hread
  have hview : viewSlice .rx (complete .none { s with off := headerLength (s.mem.read 0x30000) }) = m :=
    viewSlice_rx_eq_of_read hlen hread
  have hlt : m.length < 65536 := by
    rw [← hview]
    exact length_viewSlice_lt _ _
  exact ⟨_, _, exec_strip hne, hview, exec_decode_of_viewSlice hview h8, rfl, rfl, rfl, rfl, rfl,
    rdlen_writeReply s hlt, fun _ => read_writeReply_data⟩

end Sys2Proof.Machine
end

section
/-! The round trip of R102: the message in TXV is followed from ENCODE to DECODE, with or without CSUM and PATCH in
between. -/

namespace Sys2Proof.Machine

variable {s t : State} {ty : Byte} {c id sq : Half} {data m : List Byte} {rest : List HostAction}

/-! ### Echo messages -/

/-- An echo message with code 0 (spec/30_encoding.md R79). -/
def echoMessage (ty : Byte) (c id sq : Half) (data : List Byte) : List Byte :=
  [ty, 0, hi8 c, lo8 c, hi8 id, lo8 id, hi8 sq, lo8 sq] ++ data

@[simp] theorem length_echoMessage : (echoMessage ty c id sq data).length = 8 + data.length := by
  rw [echoMessage, List.length_append]
  rfl

theorem getD_echoMessage_data (i : Nat) :
    (echoMessage ty c id sq data).getD (8 + i) 0 = data.getD i 0 := by
  rw [Nat.add_comm]
  rfl

/-- Messages that differ only in the checksum field agree elsewhere. -/
theorem getD_echoMessage_of_ne {c' : Half} : ∀ {k : Nat}, k ≠ 2 → k ≠ 3 →
    (echoMessage ty c id sq data).getD k 0 = (echoMessage ty c' id sq data).getD k 0
  | 0, _, _ | 1, _, _ | _ + 4, _, _ => rfl

/-- The checksum field does not enter the checksum (R94). -/
theorem checksum_echoMessage (c c' : Half) :
    checksum (echoMessage ty c id sq data) = checksum (echoMessage ty c' id sq data) := rfl

/-! ### TXV after each command -/

/-- A slice shows only its own bytes. -/
theorem bufferSlice_congr {b : Buffer} {i n : Nat}
    (h : ∀ k < n, t.mem.read (b.base + (i + k)) = s.mem.read (b.base + (i + k))) :
    bufferSlice b i n t = bufferSlice b i n s :=
  List.map_congr_left fun k hk => h k (List.mem_range.1 hk)

/-- TXLEN is the length of TXV. -/
theorem txlen_of_viewSlice_tx (h : viewSlice .tx s = m) : s.txlen.toNat = m.length := by
  rw [← h, viewSlice, length_bufferSlice]

/-- ENCODE puts the message with a zero checksum field in TXV. -/
theorem viewSlice_tx_encodeInto (hp : s.plen.toNat ≤ Config.maxPlen) :
    viewSlice .tx (encodeInto ty id sq s) = echoMessage ty 0 id sq (payload s) := by
  rw [← viewBytes_eq_slice]
  exact txView_encodeInto ty id sq hp

/-- PATCH puts CSR in the checksum field of the message in TXV. -/
theorem viewSlice_tx_patchChecksum (h : viewSlice .tx s = echoMessage ty c id sq data) :
    viewSlice .tx (patchChecksum s) = echoMessage ty s.csr id sq data := by
  have hlen := txlen_of_viewSlice_tx h
  refine bufferSlice_eq_of_read (hlen.trans (by simp)) fun k hk => ?_
  have hbase : Buffer.txbuf.base + (0 + k) = 0x20000 + k := by rw [Buffer.base, Nat.zero_add]
  rw [hbase]
  by_cases h2 : k = 2
  · subst h2
    exact read_patchChecksum s 0x20002
  by_cases h3 : k = 3
  · subst h3
    exact read_patchChecksum s 0x20003
  have hk' : k < s.txlen.toNat := by simpa [hlen] using hk
  rw [read_patchChecksum_other (by omega) (by omega), ← hbase, ← getD_bufferSlice .txbuf 0 s hk']
  exact (congrArg (List.getD · k 0) h).trans (getD_echoMessage_of_ne h2 h3)

/-- DECODE writes nothing of TXV. -/
theorem viewSlice_tx_writeReply (m : List Byte) (s : State) :
    viewSlice .tx (writeReply m s) = viewSlice .tx s := by
  refine bufferSlice_congr fun k hk => read_writeReply_outside (.inl ?_)
  have hlt := s.txlen.isLt
  rw [writeReply_txlen] at hk
  rw [Buffer.base]
  omega

/-! ### The run -/

/-- The block is idle, the script still holds these actions, and TXV is this message. -/
structure Ready (rest : List HostAction) (m : List Byte) (s : State) : Prop where
  busy : s.status.busy = false
  script : s.script = rest
  txv : viewSlice .tx s = m

/-- The reply registers and RDATA hold the fields of an echo message with code 0. -/
structure Decoded (ty : Byte) (c id sq : Half) (data : List Byte) (s : State) : Prop where
  rtype : s.rtype = ty
  rcode : s.rcode = 0
  rcsum : s.rcsum = c
  rid : s.rid = id
  rseq : s.rseq = sq
  rdlen : s.rdlen = BitVec.ofNat 16 data.length
  rdata : ∀ i < data.length, s.mem.read (0x40000 + i) = data.getD i 0

theorem decoded_writeReply (s : State) :
    Decoded ty c id sq data (writeReply (echoMessage ty c id sq data) s) where
  rtype := rfl
  rcode := rfl
  rcsum := be16_hi8_lo8 c
  rid := be16_hi8_lo8 id
  rseq := be16_hi8_lo8 sq
  rdlen := by
    show BitVec.ofNat 16 ((echoMessage ty c id sq data).length - 8) = _
    rw [length_echoMessage, Nat.add_sub_cancel_left]
  rdata i hi := by
    rw [read_writeReply_data (by rw [length_echoMessage]; omega), getD_echoMessage_data]

theorem step_encode (hb : s.status.busy = false) (hp : s.plen.toNat ≤ Config.maxPlen)
    (hs : s.script = issueCommand (.encode ty) :: rest) :
    ∃ t, step s = .next t ∧ Ready rest (echoMessage ty 0 (argHigh s) (argLow s) (payload s)) t :=
  ⟨_, step_issueCommand (decode_encode _) hb hs, rfl, rfl, viewSlice_tx_encodeInto hp⟩

theorem Ready.step_csum (h : Ready (issueCommand (.csum .tx) :: rest) m s) :
    ∃ t, step s = .next t ∧ Ready rest m t ∧ t.csr = checksum m := by
  refine ⟨_, (step_issueCommand (decode_encode _) h.busy h.script).trans (exec_csum _ _),
    ⟨rfl, rfl, h.txv⟩, ?_⟩
  exact congrArg checksum h.txv

theorem Ready.step_patch (h : Ready (issueCommand .patch :: rest) (echoMessage ty c id sq data) s) :
    ∃ t, step s = .next t ∧ Ready rest (echoMessage ty s.csr id sq data) t ∧ t.csr = s.csr := by
  have h8 : 8 ≤ s.txlen.toNat := by
    rw [txlen_of_viewSlice_tx h.txv, length_echoMessage]
    omega
  exact ⟨_, (step_issueCommand (decode_encode _) h.busy h.script).trans (exec_patch h8),
    ⟨rfl, rfl, viewSlice_tx_patchChecksum h.txv⟩, rfl⟩

theorem Ready.step_decode
    (h : Ready (issueCommand (.decode .tx) :: rest) (echoMessage ty c id sq data) s) :
    ∃ t, step s = .next t ∧ Ready rest (echoMessage ty c id sq data) t ∧
      Decoded ty c id sq data t ∧ t.csr = s.csr := by
  have h8 : 8 ≤ (echoMessage ty c id sq data).length := by
    rw [length_echoMessage]
    omega
  exact ⟨_, (step_issueCommand (decode_encode _) h.busy h.script).trans
    (exec_decode_of_viewSlice h.txv h8),
    ⟨rfl, rfl, (viewSlice_tx_writeReply _ _).trans h.txv⟩, { decoded_writeReply _ with }, rfl⟩

/-- The payload a decoded message carries is the one that was encoded. -/
theorem Decoded.rdlen_eq_plen (h : Decoded ty c id sq (payload s) t) : t.rdlen = s.plen := by
  rw [h.rdlen, length_payload, BitVec.ofNat_toNat, BitVec.setWidth_eq]

theorem Decoded.read_rdata (h : Decoded ty c id sq (payload s) t) {i : Nat} (hi : i < s.plen.toNat) :
    t.mem.read (0x40000 + i) = s.mem.read (0x10000 + i) := by
  rw [h.rdata i (by rwa [length_payload]), getD_payload hi]

/-- Settles O38: TXV is followed through the commands of the run. -/
theorem encodeThenDecodeRecoversTheMessage : Obligations.EncodeThenDecodeRecoversTheMessage := by
  intro s ty rest _ hb hp
  constructor
  · intro hs
    obtain ⟨s₁, h₁, encoded⟩ := step_encode hb hp hs
    obtain ⟨t, h₂, -, d, -⟩ := encoded.step_decode
    have hrun : runSteps 2 s = .next t := by
      rw [runSteps_succ h₁, runSteps_succ h₂, runSteps_zero]
    exact ⟨t, hrun, d.rtype, d.rcode, d.rcsum, d.rid, d.rseq, d.rdlen_eq_plen, fun _ => d.read_rdata⟩
  · intro hs
    obtain ⟨s₁, h₁, encoded⟩ := step_encode hb hp hs
    obtain ⟨s₂, h₂, summed, hsum⟩ := encoded.step_csum
    obtain ⟨s₃, h₃, patched, hcsr₃⟩ := summed.step_patch
    obtain ⟨t, h₄, decoded, d, hcsr₄⟩ := patched.step_decode
    have hrun : runSteps 4 s = .next t := by
      rw [runSteps_succ h₁, runSteps_succ h₂, runSteps_succ h₃, runSteps_succ h₄, runSteps_zero]
    have hcsr : t.csr = s₂.csr := hcsr₄.trans hcsr₃
    have hcheck : t.csr = checksum (viewSlice .tx t) := by
      rw [hcsr, hsum, decoded.txv]
      exact checksum_echoMessage _ _
    exact ⟨t, hrun, d.rtype, d.rcode, d.rcsum.trans hcsr.symm, d.rid, d.rseq, d.rdlen_eq_plen,
      fun _ => d.read_rdata, hcheck⟩

end Sys2Proof.Machine
end

section
/-! CONSTRUCT: its issue step, the host's two answers, and what a failed one leaves (spec/42_session.md R121 to R124). -/

namespace Sys2Proof.Machine

variable {s : State} {plp : Bool} {id : Half} {rest : List HostAction}

/-- A completion, given the phase the command ends in. -/
theorem complete_eq_ended {p : Phase} (e : ErrorCode) (h : s.status.phase = p) :
    complete e s = { s with status := endedStatus e p, hstep := .idle } := by
  subst h
  rfl

/-! ### The issue step (R122) -/

theorem exec_construct_in_session {fam : Family} (h : s.status.phase ≠ .noSession) :
    exec (.construct fam plp id) s = .next (complete .sessionState s) :=
  if_pos h

theorem exec_construct_v6 (h : s.status.phase = .noSession) :
    exec (.construct .v6 plp id) s = .next (complete .resolution s) := by
  rw [exec, execConstruct, if_neg (not_not.2 h), if_pos rfl]
  rfl

theorem exec_construct_too_long (h : s.status.phase = .noSession)
    (hlong : Config.maxPlen < (argLow s).toNat) :
    exec (.construct .v4 true id) s = .next (complete .illegalCommand s) := by
  rw [exec, execConstruct, if_neg (not_not.2 h), if_neg (by decide),
    if_pos ⟨rfl, Nat.not_le.2 hlong⟩]
  rfl

/-- Settles O39: one clause per outcome of the checks. -/
theorem constructIssueStep : Obligations.ConstructIssueStep := by
  intro s fam plp id _
  refine ⟨fun h => ?_, ?_, ?_, ?_⟩
  · exact exec_construct_in_session h
  · rintro h rfl
    rw [exec_construct_v6 h, complete_eq_ended _ h]
  · rintro h rfl rfl hlong
    rw [← argLow_toNat] at hlong
    rw [exec_construct_too_long h hlong, complete_eq_ended _ h]
  · rintro h rfl hfits
    rw [← argLow_toNat] at hfits
    exact exec_construct h hfits

/-! ### The answers (R123) -/

/-- What memory holds after the payload is zero-filled. -/
theorem read_zeroFill (m : Memory) (n a : Nat) :
    (m.writeBytes 0x10000 (List.replicate n 0)).read a =
      if 0x10000 ≤ a ∧ a < 0x10000 + n then 0 else m.read a := by
  rw [Memory.read_writeBytes, List.length_replicate, getD_replicate_zero]

/-- Settles O40: the answer is the pending one, so its step runs. -/
theorem constructAnswerSteps : Obligations.ConstructAnswerSteps := by
  intro s rest _ before
  refine ⟨fun hw hs => ?_, fun addr hw hs => ?_, fun hw hs => ?_, fun hw hs => ?_⟩
  · exact step_pendingAnswer (a := .resolveFail) hw hs
  · exact step_pendingAnswer (a := .resolveOk addr) hw hs
  · exact step_pendingAnswer (a := .socketFail) hw hs
  · exact ⟨_, step_pendingAnswer (a := .socketOk) hw hs, rfl, read_zeroFill s.mem s.pendPlen.toNat⟩

/-! ### The whole command -/

/-- The state in which a CONSTRUCT waits for its address, from the state that issues it. -/
def constructIssued (plp : Bool) (id : Half) (rest : List HostAction) (s : State) : State :=
  ask .constructResolve (.resolve s.dest 0) (setBusy
    { keepPending (recordIssue (encode (.construct .v4 plp id)) { s with script := rest }) with
      pendId := id
      pendPlen := if plp then argLow s else 56 })

theorem step_construct (hb : s.status.busy = false) (hp : s.status.phase = .noSession)
    (harg : plp = true → s.arg.toNat % 65536 ≤ Config.maxPlen)
    (hs : s.script = issueCommand (.construct .v4 plp id) :: rest) :
    step s = .next (constructIssued plp id rest s) := by
  rw [← argLow_toNat] at harg
  exact (step_issueCommand (decode_encode _) hb hs).trans (exec_construct hp harg)

section Runs

variable {addr : Word} (hb : s.status.busy = false) (hp : s.status.phase = .noSession)
  (harg : plp = true → s.arg.toNat % 65536 ≤ Config.maxPlen)

include hb hp harg

/-- The run of a CONSTRUCT whose issue step is answered by the host once. -/
theorem runSteps_construct_answer {a : HostAnswer}
    (ha : AnswersPending a (constructIssued plp id (.answer a :: rest) s))
    (hs : s.script = issueCommand (.construct .v4 plp id) :: .answer a :: rest) :
    runSteps 2 s = .next (takeAnswer a (constructIssued plp id rest s)) := by
  rw [runSteps_succ (step_construct hb hp harg hs)]
  exact runSteps_succ (step_pendingAnswer ha rfl)

/-- The run of a CONSTRUCT whose address the host resolves and whose socket request it answers. -/
theorem runSteps_construct_resolved_answer {a : HostAnswer}
    (ha : AnswersPending a (constructResolved (some addr) (constructIssued plp id (.answer a :: rest) s)))
    (hs : s.script =
      issueCommand (.construct .v4 plp id) :: .answer (.resolveOk addr) :: .answer a :: rest) :
    runSteps 3 s =
      .next (takeAnswer a (constructResolved (some addr) (constructIssued plp id rest s))) :=
  (runSteps_add (n := 1)
    (runSteps_construct_answer (a := .resolveOk addr) hb hp harg rfl hs)).trans
    (runSteps_succ (step_pendingAnswer ha rfl))

end Runs

/-- Settles O41: the issue step, and an answer for each of the two requests. -/
theorem constructOpensTheSession : Obligations.ConstructOpensTheSession := by
  intro s plp id addr rest hclean hb hp harg hs
  have hrun := runSteps_construct_resolved_answer (a := .socketOk) hb hp harg rfl hs
  exact ⟨_, hrun, rfl, rfl, rfl, rfl, rfl, rfl, rfl, rfl, List.append_assoc _ _ _, rfl, hclean,
    read_zeroFill _ _⟩

/-- What a CONSTRUCT leaves that the host fails once it made these requests. -/
def constructFailed (plp : Bool) (id : Half) (e : ErrorCode) (requests : List HostRequest)
    (rest : List HostAction) (s : State) : State :=
  { s with
    cmd := encode (.construct .v4 plp id)
    status := endedStatus e .noSession
    outbox := s.outbox ++ requests
    script := rest }

section Failure

variable (hidle : s.hstep = .idle) (hpend : s.pendBefore = none) (hp : s.status.phase = .noSession)
  (e : ErrorCode)

include hidle hpend hp

/-- A failed resolve puts h.PEND_* back, and before the command nothing waited. -/
theorem constructFail_constructIssued :
    constructFail e (constructIssued plp id rest s) =
      constructFailed plp id e [.resolve s.dest 0] rest s := by
  rw [constructFailed, ← hp]
  cases s
  cases hidle
  cases hpend
  rfl

/-- A failed socket also puts back the address that the resolver gave. -/
theorem constructFail_constructResolved (addr : Word) :
    constructFail e (constructResolved (some addr) (constructIssued plp id rest s)) =
      constructFailed plp id e [.resolve s.dest 0, .socket 0] rest s := by
  rw [constructFailed, ← hp, List.append_cons]
  cases s
  cases hidle
  cases hpend
  rfl

end Failure

/-- Such a CONSTRUCT changes no register but CMD and STATUS. -/
theorem readReg_constructFailed {e : ErrorCode} {requests : List HostRequest} {r : Reg}
    (hcmd : r ≠ .cmd) (hstatus : r ≠ .status) :
    readReg r (constructFailed plp id e requests rest s) = readReg r s := by
  cases r with
  | cmd => exact absurd rfl hcmd
  | status => exact absurd rfl hstatus
  | _ => rfl

/-- Settles O42: by log entry 16 the failing step puts back all that the issue step kept. -/
theorem failedConstructLeavesNothing : Obligations.FailedConstructLeavesNothing := by
  intro s plp id addr rest k _ hinv hb hp harg hfail
  have hidle := hinv.hstep_eq_idle hb
  obtain ⟨hpend, hsock⟩ : s.pendBefore = none ∧ s.sock = .none := by
    have hw := hinv.waitsAt
    rw [hidle] at hw
    simpa [State.WaitsAt, hp] using hw
  rcases hfail with ⟨rfl, hs⟩ | ⟨rfl, hs⟩
  · have hrun := runSteps_construct_answer (a := .resolveFail) hb hp harg rfl hs
    rw [takeAnswer, constructResolved, constructFail_constructIssued hidle hpend hp] at hrun
    exact ⟨_, hrun, hsock, hidle, rfl, rfl, fun _ => readReg_constructFailed, rfl⟩
  · have hrun := runSteps_construct_resolved_answer (a := .socketFail) hb hp harg rfl hs
    rw [takeAnswer, constructSocket, if_neg Bool.false_ne_true,
      constructFail_constructResolved hidle hpend hp] at hrun
    exact ⟨_, hrun, hsock, hidle, rfl, rfl, fun _ => readReg_constructFailed, rfl⟩

end Sys2Proof.Machine
end

section
/-! SEND: the request it hands to the host, the answer, and any number of SENDs one after another (spec/42_session.md
R126 to R129). -/

namespace Sys2Proof.Machine

variable {s t u : State} {rest : List HostAction}

/-! ### The issue step (R127) -/

/-- The request is an echo message of the session with its checksum in place. -/
theorem requestMessage_eq_echoMessage (s : State) :
    requestMessage s =
      echoMessage (requestType s) (checksum (requestMessage s)) s.id s.seq (payload s) := rfl

theorem be16_requestMessage_checksum (s : State) :
    be16 ((requestMessage s).getD 2 0) ((requestMessage s).getD 3 0) = checksum (requestMessage s) :=
  be16_hi8_lo8 _

theorem be16_requestMessage_id (s : State) :
    be16 ((requestMessage s).getD 4 0) ((requestMessage s).getD 5 0) = s.id :=
  be16_hi8_lo8 _

theorem be16_requestMessage_seq (s : State) :
    be16 ((requestMessage s).getD 6 0) ((requestMessage s).getD 7 0) = s.seq :=
  be16_hi8_lo8 _

theorem getD_requestMessage_payload {i : Nat} (hi : i < s.plen.toNat) :
    (requestMessage s).getD (8 + i) 0 = s.mem.read (0x10000 + i) := by
  rw [requestMessage_eq_echoMessage, getD_echoMessage_data, getD_payload hi]

/-- Building the request writes no byte outside it. -/
theorem read_prepareRequest_outside (hp : s.plen.toNat ≤ Config.maxPlen) {a : Nat}
    (ha : a < 0x20000 ∨ 0x20008 + s.plen.toNat ≤ a) :
    (prepareRequest s).mem.read a = s.mem.read a := by
  rw [read_prepareRequest hp, if_neg (by omega), if_neg (by omega), if_neg (by omega)]

/-- After prepareRequest, TXV is the request. -/
theorem viewSlice_tx_prepareRequest (hp : s.plen.toNat ≤ Config.maxPlen) :
    viewSlice .tx (prepareRequest s) = requestMessage s := by
  rw [← viewBytes_eq_slice]
  exact txView_prepareRequest hp

/-- The state in which a SEND waits for its answer. -/
def sendIssued (s : State) : State :=
  { s with
    mem := (prepareRequest s).mem
    txlen := (prepareRequest s).txlen
    csr := checksum (requestMessage s)
    status := { s.status with busy := true, phase := .sending }
    hstep := .sendTx
    outbox := s.outbox ++ [.sendto (requestMessage s) s.saddr] }

theorem exec_send_eq_sendIssued (h : s.status.phase = .opened) (hp : s.plen.toNat ≤ Config.maxPlen) :
    exec .send s = .next (sendIssued s) := by
  rw [exec_send h, txView_prepareRequest hp, sendIssued, checksum_requestMessage,
    prepareRequest_eq hp]
  rfl

/-- Settles O43: TXV is the request, read byte by byte. -/
theorem sendIssueStep : Obligations.SendIssueStep := by
  refine fun s _ => ⟨exec_of_not_opened (.inl rfl), fun h hp => ?_⟩
  have hview : viewSlice .tx (sendIssued s) = requestMessage s := viewSlice_tx_prepareRequest hp
  exact ⟨sendIssued s, requestMessage s, exec_send_eq_sendIssued h hp, rfl, txlen_prepareRequest hp,
    hview.symm, rfl, rfl, be16_requestMessage_checksum s, be16_requestMessage_id s,
    be16_requestMessage_seq s, fun _ => getD_requestMessage_payload,
    fun _ => read_prepareRequest_outside hp⟩

/-! ### The answer (R128) -/

/-- Settles O44: the count of an allowed answer is at most TXLEN, so it fits in TXCNT. -/
theorem sendAnswerStep : Obligations.SendAnswerStep := by
  refine fun s rest _ hw => ⟨step_pendingAnswer (a := .sendtoFail) hw, fun n hn hs => ?_⟩
  have hlt : n < 65536 := hn.trans_lt s.txlen.isLt
  exact ⟨_, step_pendingAnswer (a := .sendtoOk n) ⟨hw, hn⟩ hs, rfl, Nat.mod_eq_of_lt hlt,
    BitVec.toNat_add _ _⟩

/-! ### SENDs one after another (R129) -/

/-- From s to t the block completed a SEND for each of these requests, in an open session, and is idle again. -/
structure Sent (sent : List HostRequest) (s t : State) : Prop where
  busy : t.status.busy = false
  phase : t.status.phase = .opened
  violations : t.violations = s.violations
  id : t.id = s.id
  saddr : t.saddr = s.saddr
  plen : t.plen = s.plen
  seq : t.seq.toNat = (s.seq.toNat + sent.length) % 65536
  outbox : t.outbox = s.outbox ++ sent
  carried : ∀ i < sent.length, ∃ m, sent[i]? = some (.sendto m s.saddr) ∧
    be16 (m.getD 4 0) (m.getD 5 0) = s.id ∧
    (be16 (m.getD 6 0) (m.getD 7 0)).toNat = (s.seq.toNat + i) % 65536
  payload : ∀ i < s.plen.toNat, t.mem.read (0x10000 + i) = s.mem.read (0x10000 + i)

/-- No SEND. -/
theorem Sent.nil (hb : s.status.busy = false) (hp : s.status.phase = .opened) : Sent [] s s where
  busy := hb
  phase := hp
  violations := rfl
  id := rfl
  saddr := rfl
  plen := rfl
  seq := (Nat.mod_eq_of_lt s.seq.isLt).symm
  outbox := (List.append_nil _).symm
  carried := fun _ hi => absurd hi (Nat.not_lt_zero _)
  payload := fun _ _ => rfl

/-- One SEND, and then others. -/
theorem Sent.cons {r : HostRequest} {sent : List HostRequest} (h : Sent [r] s u) (h' : Sent sent u t) :
    Sent (r :: sent) s t where
  busy := h'.busy
  phase := h'.phase
  violations := h'.violations.trans h.violations
  id := h'.id.trans h.id
  saddr := h'.saddr.trans h.saddr
  plen := h'.plen.trans h.plen
  seq := by
    simp only [h'.seq, h.seq, List.length_cons, List.length_nil]
    omega
  outbox := by rw [h'.outbox, h.outbox, List.append_assoc, List.singleton_append]
  carried := by
    rintro (_ | i) hi
    · exact h.carried 0 (by simp)
    · obtain ⟨m, hm, hid, hseq⟩ := h'.carried i (Nat.lt_of_succ_lt_succ hi)
      refine ⟨m, h.saddr ▸ hm, hid.trans h.id, ?_⟩
      rw [hseq, h.seq, List.length_singleton]
      omega
  payload := fun i hi => (h'.payload i (h.plen ▸ hi)).trans (h.payload i hi)

/-- The state after a SEND that the host answered Ok(n). -/
def sendCompleted (n : Nat) (rest : List HostAction) (s : State) : State :=
  sendAnswer (some n) (sendIssued (recordIssue (encode .send) { s with script := rest }))

theorem runSteps_send {n : Nat} (hb : s.status.busy = false) (hopen : s.status.phase = .opened)
    (hp : s.plen.toNat ≤ Config.maxPlen) (hn : n ≤ 8 + s.plen.toNat)
    (hs : s.script = issueCommand .send :: .answer (.sendtoOk n) :: rest) :
    runSteps 2 s = .next (sendCompleted n rest s) := by
  have hissue := (step_issueCommand (decode_encode _) hb hs).trans (exec_send_eq_sendIssued hopen hp)
  have hlen := txlen_prepareRequest (s := recordIssue (encode .send) { s with script := rest }) hp
  rw [runSteps_succ hissue]
  exact runSteps_succ (step_pendingAnswer (a := .sendtoOk n) ⟨rfl, hn.trans_eq hlen.symm⟩ rfl)

/-- One SEND hands over the request message of its first state. -/
theorem Sent.single (hp : s.plen.toNat ≤ Config.maxPlen) (n : Nat) (rest : List HostAction) :
    Sent [.sendto (requestMessage s) s.saddr] s (sendCompleted n rest s) where
  busy := rfl
  phase := rfl
  violations := rfl
  id := rfl
  saddr := rfl
  plen := rfl
  seq := BitVec.toNat_add _ _
  outbox := rfl
  carried := by
    intro i hi
    obtain rfl : i = 0 := Nat.lt_one_iff.1 hi
    refine ⟨_, rfl, be16_requestMessage_id s, ?_⟩
    rw [be16_requestMessage_seq]
    exact (Nat.mod_eq_of_lt s.seq.isLt).symm
  payload := by
    have hmax := Config.maxPlen_bounds
    exact fun i hi => read_prepareRequest_outside
      (s := recordIssue (encode .send) { s with script := rest }) hp (.inl (by omega))

/-- A run of SENDs, one for each answer, hands over one request each. -/
theorem runSteps_sends (counts : List Nat) (hb : s.status.busy = false)
    (hopen : s.status.phase = .opened) (hp : s.plen.toNat ≤ Config.maxPlen)
    (hn : ∀ n ∈ counts, n ≤ 8 + s.plen.toNat)
    (hs : s.script = (counts.flatMap fun n => [issueCommand .send, .answer (.sendtoOk n)]) ++ rest) :
    ∃ sent t, runSteps (2 * counts.length) s = .next t ∧ t.script = rest ∧
      sent.length = counts.length ∧ Sent sent s t := by
  induction counts generalizing s with
  | nil => exact ⟨[], s, rfl, hs, rfl, .nil hb hopen⟩
  | cons n counts ih =>
    obtain ⟨hfst, hcounts⟩ := List.forall_mem_cons.1 hn
    have hrun := runSteps_send hb hopen hp hfst hs
    obtain ⟨sent, t, hruns, hrest, hlen, hsent⟩ :=
      ih (s := sendCompleted n _ s) rfl rfl hp hcounts rfl
    refine ⟨_ :: sent, t, ?_, hrest, congrArg (· + 1) hlen, (Sent.single hp n _).cons hsent⟩
    rw [List.length_cons, Nat.mul_succ, Nat.add_comm, runSteps_add hrun]
    exact hruns

/-- Settles O45. -/
theorem sequenceCountsTheSends : Obligations.SequenceCountsTheSends := by
  intro s counts rest hclean hb hopen hp hn hs
  obtain ⟨sent, t, hrun, hscript, hlen, h⟩ := runSteps_sends counts hb hopen hp hn hs
  rw [← hlen] at hrun ⊢
  exact ⟨t, sent, hrun, h.violations.trans hclean, h.phase, h.busy, hscript, h.seq, h.outbox,
    rfl, h.carried, h.payload⟩

end Sys2Proof.Machine
end

section
/-! RECV: its issue step, what becomes of a datagram, and how it completes (spec/42_session.md R130 to R137). -/

namespace Sys2Proof.Machine

variable {s : State} {d : List Byte} {src : Word} {rest : List HostAction}

/-! ### The issue step and a failed read (R131, R132) -/

/-- Settles O46. -/
theorem recvIssueStep : Obligations.RecvIssueStep :=
  fun _ _ => ⟨exec_of_not_opened (.inr (.inl rfl)), exec_recv⟩

/-- Settles O47. -/
theorem recvReadFailureKeepsTheSession : Obligations.RecvReadFailureKeepsTheSession :=
  fun _ _ _ hw hs => step_pendingAnswer (a := .recvfromFail) hw hs

/-! ### What a datagram does (R133, R134) -/

theorem step_datagram (hw : s.hstep = .recvWait) (hs : s.script = .answer (.recvfromOk d src) :: rest) :
    step s = .next (recvDatagram d src { s with script := rest }) :=
  step_pendingAnswer (a := .recvfromOk d src) hw hs

/-- The state once the datagram at the head of the script is stored, cut at the receive capacity, and stripped. -/
def received (d : List Byte) (rest : List HostAction) (s : State) : State :=
  { s with
    script := rest
    mem := s.mem.writeBytes 0x30000 (d.take (68 + s.plen.toNat))
    rxlen := BitVec.ofNat 16 (min d.length (68 + s.plen.toNat))
    off := BitVec.ofNat 16 (declaredHeader d) }

theorem stripDatagram_storeDatagram (h : s.Inv) (hne : d ≠ []) (rest : List HostAction) :
    stripDatagram (storeDatagram d { s with script := rest }) = received d rest s := by
  have hoff := off_stripDatagram (h.withScript rest).family_zero hne
  rw [received, ← hoff, BitVec.ofNat_toNat, BitVec.setWidth_eq]
  rfl

/-- In t the datagram stands in RXBUF, cut at the receive capacity of s, and OFF at the header it declares. -/
structure Stored (d : List Byte) (s t : State) : Prop where
  rxlen : t.rxlen.toNat = min d.length (68 + s.plen.toNat)
  off : t.off.toNat = declaredHeader d
  inside : ∀ i < min d.length (68 + s.plen.toNat), t.mem.read (0x30000 + i) = d.getD i 0
  outside : ∀ a : Nat, a < 0x30000 ∨ 0x30000 + min d.length (68 + s.plen.toNat) ≤ a →
    t.mem.read a = s.mem.read a

theorem stored_stripDatagram (h : s.Inv) (hne : d ≠ []) :
    Stored d s (stripDatagram (storeDatagram d s)) where
  rxlen := rxlen_storeDatagram h.plen_le d
  off := off_stripDatagram h.family_zero hne
  inside := fun i hi => by
    rw [stripDatagram_mem, read_storeDatagram, if_pos (by omega), Nat.add_sub_cancel_left]
  outside := fun a ha => by
    rw [stripDatagram_mem, read_storeDatagram, if_neg (by omega)]

theorem stored_received (h : s.Inv) (hne : d ≠ []) (rest : List HostAction) :
    Stored d s (received d rest s) := by
  rw [← stripDatagram_storeDatagram h hne rest]
  exact { stored_stripDatagram (h.withScript rest) hne with }

theorem step_datagram_discard (h : s.Inv) (hw : s.hstep = .recvWait)
    (hs : s.script = .answer (.recvfromOk d src) :: rest) (hd : HasId d (68 + s.plen.toNat))
    (hid : declaredId d ≠ s.id) :
    step s = .next (ask .recvWait (.recvfrom (68 + s.plen.toNat)) (received d rest s)) := by
  rw [step_datagram hw hs, recvDatagram_discard src (h.withScript rest).family_zero hd hid,
    stripDatagram_storeDatagram h hd.1]

/-- Settles O48: the filter discards the datagram, which stays stored and stripped, and h.STEP is where it was. -/
theorem otherIdentifiersAreDiscarded : Obligations.OtherIdentifiersAreDiscarded := by
  intro s d src rest _ h hw hs hd hid
  have hstep := step_datagram_discard h hw hs hd hid
  obtain ⟨hrxlen, hoff, hin, hout⟩ := stored_received h hd.1 rest
  rw [← hw] at hstep
  exact ⟨_, hstep, rfl, hrxlen, hoff, hin, hout⟩

/-- A datagram too short for its identifier field, or one of this session's too short to decode. -/
theorem recvDatagram_short (src : Word) (hf : s.family = 0) (hne : d ≠ [])
    (hshort : ¬ HasId d (68 + s.plen.toNat) ∨
      (declaredId d = s.id ∧ min d.length (68 + s.plen.toNat) < declaredHeader d + 8)) :
    recvDatagram d src s = recvFail .malformedInput (stripDatagram (storeDatagram d s)) := by
  rw [recvDatagram_of_ne_nil src hne, recvFilter, off_stripDatagram hf hne]
  by_cases h6 : min d.length (68 + s.plen.toNat) < declaredHeader d + 6
  · rw [if_pos h6]
  have hd : HasId d (68 + s.plen.toNat) := ⟨hne, Nat.not_lt.1 h6⟩
  obtain ⟨hid, h8⟩ := hshort.resolve_left (not_not.2 hd)
  have hlen : (enclosedMessage d (68 + s.plen.toNat)).length < 8 := by
    rw [length_enclosedMessage]
    omega
  rw [if_neg h6, enclosedId_stripDatagram hf hd, stripDatagram_id, storeDatagram_id,
    if_neg (not_not.2 hid), recvAccept, off_stripDatagram hf hne, bufBytes_stripDatagram,
    decodeFrom_of_short hlen]

/-- RECV_fail ends RECV in an open session and writes nothing else (R133, R135). -/
theorem recvFail_eq (e : ErrorCode) (s : State) :
    recvFail e s = { s with hstep := .idle, status := endedStatus e .opened } := rfl

/-- Settles O50: an empty datagram takes the free value, any other is stripped before it is refused. -/
theorem shortDatagramsEndRecv : Obligations.ShortDatagramsEndRecv := by
  intro s d src rest _ h hw hs hshort
  have hf := (h.withScript rest).family_zero
  have hstep := step_datagram hw hs
  by_cases hne : d = []
  · subst hne
    rw [recvDatagram_nil src hf, recvFail_eq] at hstep
    exact ⟨_, hstep, rfl, (Nat.zero_min _).symm, fun _ => ⟨rfl, rfl⟩, fun hn => absurd rfl hn,
      fun i hi => absurd (hi.trans_eq (Nat.zero_min _)) (Nat.not_lt_zero i), fun _ _ => rfl⟩
  · rw [recvDatagram_short src hf hne hshort, stripDatagram_storeDatagram h hne, recvFail_eq] at hstep
    obtain ⟨hrxlen, hoff, hin, hout⟩ := stored_received h hne rest
    exact ⟨_, hstep, rfl, hrxlen, fun hn => absurd hn hne, fun _ => ⟨hoff, rfl⟩, hin, hout⟩

/-- What accepting a stored datagram writes: the fields of the message behind its IPv4 header, and its data. -/
def accept (d : List Byte) (src : Word) (capacity : Nat) (s : State) : State :=
  { s with
    mem := s.mem.writeBytes 0x40000 ((enclosedMessage d capacity).drop 8)
    rtype := d.getD (declaredHeader d) 0
    rcode := d.getD (declaredHeader d + 1) 0
    rcsum := be16 (d.getD (declaredHeader d + 2) 0) (d.getD (declaredHeader d + 3) 0)
    rid := declaredId d
    rseq := be16 (d.getD (declaredHeader d + 6) 0) (d.getD (declaredHeader d + 7) 0)
    rdlen := BitVec.ofNat 16 (min d.length capacity - declaredHeader d - 8)
    rtotlen := BitVec.ofNat 16 (min d.length capacity)
    rsrc := src
    hstep := .idle
    status := endedStatus .none .opened }

theorem complete_writeReply_enclosedMessage {capacity : Nat}
    (h8 : declaredHeader d + 8 ≤ min d.length capacity) :
    complete .none (setPhase .opened { writeReply (enclosedMessage d capacity) s with
      rtotlen := BitVec.ofNat 16 (min d.length capacity), rsrc := src }) = accept d src capacity s := by
  have field : ∀ k < 8, (enclosedMessage d capacity).getD k 0 = d.getD (declaredHeader d + k) 0 :=
    fun k hk => getD_enclosedMessage (by omega)
  simp only [writeReply, accept, declaredId, field, length_enclosedMessage, Nat.reduceLT, Nat.add_zero]
  rfl

theorem step_datagram_accept (h : s.Inv) (hw : s.hstep = .recvWait)
    (hs : s.script = .answer (.recvfromOk d src) :: rest) (hne : d ≠ [])
    (h8 : declaredHeader d + 8 ≤ min d.length (68 + s.plen.toNat)) (hid : declaredId d = s.id) :
    step s = .next (accept d src (68 + s.plen.toNat) (received d rest s)) := by
  rw [step_datagram hw hs, recvDatagram_accept src (h.withScript rest).family_zero hne hid h8,
    complete_writeReply_enclosedMessage h8, stripDatagram_storeDatagram h hne]

/-- The data of the accepted message, in RDATA. -/
theorem read_accept_data {capacity i : Nat} (hi : i < min d.length capacity - declaredHeader d - 8) :
    (accept d src capacity s).mem.read (0x40000 + i) = d.getD (declaredHeader d + 8 + i) 0 := by
  rw [accept, read_data, length_enclosedMessage, if_pos (by omega), Nat.add_sub_cancel_left,
    getD_enclosedMessage (by omega), Nat.add_assoc]

/-- Accepting the datagram writes no byte outside the copy of the data. -/
theorem read_accept_outside {capacity a : Nat}
    (ha : a < 0x40000 ∨ 0x40000 + (min d.length capacity - declaredHeader d - 8) ≤ a) :
    (accept d src capacity s).mem.read a = s.mem.read a := by
  rw [accept, read_data, length_enclosedMessage, if_neg (by omega)]

/-- Settles O49: RXBUF, where the datagram is stored, does not reach RDATA. -/
theorem matchingDatagramIsDecoded : Obligations.MatchingDatagramIsDecoded := by
  intro s d src rest _ h hw hs hne h8 hid n hdr
  have hn : n < 65536 := by
    have hmax := Config.maxPlen_bounds
    have hp := h.plen_le
    omega
  obtain ⟨hrxlen, hoff, hin, hout⟩ := stored_received h hne rest
  have hrdlen : n - hdr - 8 < 65536 := by omega
  refine ⟨_, step_datagram_accept h hw hs hne h8 hid, ?_, hrxlen, hoff, Nat.mod_eq_of_lt hrdlen,
    Nat.mod_eq_of_lt hn, fun i hi => ?_, fun i hi => read_accept_data hi, fun a ha => ?_⟩
  · simp only [accept, hid]
    rfl
  · exact (read_accept_outside (.inl (by omega))).trans (hin i hi)
  · exact (read_accept_outside (by omega)).trans (hout a (by omega))

end Sys2Proof.Machine
end

section
/-! RECV from its issue to its first match, the end of a session, and the step of a host that does nothing
(spec/42_session.md R136 to R138). -/

namespace Sys2Proof.Machine

variable {s t : State} {rest : List HostAction}

/-! ### Discarding until the first match (R137) -/

/-- From s to t RECV discarded k datagrams, asking for another one after each, and waits. -/
structure Discarded (k : Nat) (s t : State) : Prop where
  inv : t.Inv
  waits : t.hstep = .recvWait
  violations : t.violations = s.violations
  id : t.id = s.id
  seq : t.seq = s.seq
  plen : t.plen = s.plen
  csr : t.csr = s.csr
  txlen : t.txlen = s.txlen
  outbox : t.outbox = s.outbox ++ List.replicate k (.recvfrom (68 + s.plen.toNat))

theorem Discarded.zero (h : s.Inv) (hw : s.hstep = .recvWait) : Discarded 0 s s :=
  ⟨h, hw, rfl, rfl, rfl, rfl, rfl, rfl, (List.append_nil _).symm⟩

/-- One datagram discarded, and then k others. -/
theorem Discarded.succ {k : Nat} {d : List Byte}
    (h : Discarded k (ask .recvWait (.recvfrom (68 + s.plen.toNat)) (received d rest s)) t) :
    Discarded (k + 1) s t :=
  { h with
    outbox := by
      rw [h.outbox, ask_outbox, List.append_assoc]
      rfl }

/-- A run of datagrams with other identifiers. -/
theorem runSteps_discard (others : List (List Byte × Word)) (h : s.Inv) (hclean : Clean s)
    (hw : s.hstep = .recvWait)
    (hothers : ∀ o ∈ others, HasId o.1 (68 + s.plen.toNat) ∧ declaredId o.1 ≠ s.id)
    (hs : s.script = (others.map fun o => .answer (.recvfromOk o.1 o.2)) ++ rest) :
    ∃ t, runSteps others.length s = .next t ∧ t.script = rest ∧ Discarded others.length s t := by
  induction others generalizing s with
  | nil => exact ⟨s, rfl, hs, .zero h hw⟩
  | cons o others ih =>
    obtain ⟨⟨hd, hid⟩, hothers⟩ := List.forall_mem_cons.1 hothers
    have hstep := step_datagram_discard h hw hs hd hid
    have hinv := stepKeepsTheInvariant s _ hclean h hstep
    obtain ⟨t, hrun, hscript, ht⟩ := ih hinv hclean rfl hothers rfl
    exact ⟨t, (runSteps_succ hstep).trans hrun, hscript, ht.succ⟩

/-- Settles O51: the issue step, the discarded datagrams, and the accepted one. -/
theorem recvCompletesOnTheFirstMatch : Obligations.RecvCompletesOnTheFirstMatch := by
  intro s others d src rest hclean h hb hopen hothers hne h8 hid hs
  have hissue := (step_issueCommand (decode_encode .recv) hb hs).trans (exec_recv hopen)
  have hinv := stepKeepsTheInvariant s _ hclean h hissue
  obtain ⟨v, hrun, hscript, hv⟩ := runSteps_discard others hinv hclean rfl hothers rfl
  have hplen : v.plen = s.plen := hv.plen
  have hvid : v.id = s.id := hv.id
  have hvclean : Clean v := hv.violations.trans hclean
  obtain ⟨t, hstep, ht, -, -, hrdlen, hrtotlen, -, hdata, -⟩ := matchingDatagramIsDecoded v d src rest
    hvclean hv.inv hv.waits hscript hne (hplen ▸ h8) (hid.trans hvid.symm)
  rw [hplen] at hrdlen hrtotlen hdata
  have hrun : runSteps (others.length + 2) s = .next t := by
    rw [runSteps_succ hissue, runSteps_add hrun, runSteps_succ hstep, runSteps_zero]
  have hout : t.outbox = s.outbox ++ List.replicate (others.length + 1) (.recvfrom (68 + s.plen.toNat)) := by
    rw [ht, hv.outbox, ask_outbox, List.append_assoc]
    rfl
  refine ⟨t, hrun, ?_, ?_, ?_, hout, ?_, ?_, ?_, hrtotlen, hrdlen, hdata, ?_, ?_, ?_, ?_⟩ <;> rw [ht]
  · exact hvclean
  · exact hvid
  · exact hv.seq
  · exact hvid
  · exact hv.csr
  · exact hv.txlen

/-! ### CLOSE (R138) -/

/-- Settles O52. -/
theorem closeEndsTheSession : Obligations.CloseEndsTheSession :=
  fun _ _ => ⟨exec_close, exec_of_not_opened (.inr (.inr rfl))⟩

/-! ### A host that does nothing (R136) -/

theorem step_nil (hs : s.script = []) : step s = .next s := by
  rw [step, takeAction, hs]

/-- Settles O9. -/
theorem noHostActionChangesNothing : Obligations.NoHostActionChangesNothing :=
  fun _ => step_nil

end Sys2Proof.Machine
end

section
/-! Host violations (spec/60_exceptions.md R160): which actions are recorded, and that a record is all they leave. -/

namespace Sys2Proof.Machine

variable {s t : State} {addr : HostAddr} {size : Nat} {v : Word}

/-! ### Writes that the host port refuses (R54, R55, R59) -/

/-- A write to a register other than CMD is refused where R21 gives no write access, and where the value of PLEN or
RXLEN breaks its bound. -/
theorem writeReg_eq_none_iff {r : Reg} (hr : r ≠ .cmd) :
    writeReg r v s = none ↔
      ¬ HostWritableReg r ∨ (r = .plen ∧ (s.status.phase ≠ .noSession ∨ Config.maxPlen < v.toNat)) ∨
        (r = .rxlen ∧ Buffer.rxbuf.size < v.toNat) := by
  cases r with
  | cmd => exact absurd rfl hr
  | plen => simp [writeReg, HostWritableReg, imp_iff_not_or]
  | rxlen => simp [writeReg, HostWritableReg]
  | _ => simp [writeReg, HostWritableReg]

/-- A byte write is refused in TXBUF and in RDATA (R41). -/
theorem writeByte_eq_none_iff {b : Buffer} {i : Nat} :
    writeByte b i v s = none ↔ b = .txbuf ∨ b = .rdata := by
  cases b <;> simp [writeByte, Buffer.hostWritable]

/-- An address inside a buffer lies in the window of that buffer only (R53). -/
theorem Buffer.in_window_iff {b c : Buffer} {i : Nat} (hi : i < b.size) :
    (c.base ≤ b.base + i ∧ b.base + i < c.base + 0x10000) ↔ c = b := by
  have hlt := b.size_lt
  cases b <;> cases c <;> simp [Buffer.base] <;> omega

/-- An access that reaches a place is one the host port has. -/
theorem accessExists_of_locate {p : Place} (hl : locate addr size = some p) : AccessExists addr size := by
  by_contra hn
  rw [(locate_eq_none_iff _ _).2 hn] at hl
  cases hl

/-- R160's list for a write of 4 bytes at the offset of a register. -/
theorem misuse_write_reg_iff {r : Reg} (hl : locate addr size = some (.reg r)) :
    Misuse (.write addr size v) s ↔ s.status.busy = true ∨ (r ≠ .cmd ∧ writeReg r v s = none) := by
  have hex := accessExists_of_locate hl
  obtain ⟨-, r', hr, hp⟩ | ⟨-, b, i, -, -, hp⟩ := (locate_eq_some_iff _ _ _).1 hl
  case inr => cases hp
  cases hp
  have hoffset : ∀ q : Reg, addr.toNat = q.offset ↔ r = q := fun q =>
    ⟨fun h => Reg.offset_injective (hr.symm.trans h), fun h => h ▸ hr⟩
  have hwindow : ∀ b : Buffer, ¬ b.base ≤ addr.toNat := fun b => by
    have hlo := r.offset_lt
    have hhi := b.base_ge
    omega
  by_cases hcmd : r = .cmd
  · subst hcmd
    simp [Misuse, hex, hoffset, hwindow, HostWritableReg]
  · simp [Misuse, hex, hoffset, hwindow, hcmd, writeReg_eq_none_iff]

/-- R160's list for a write of 1 byte at an address inside a buffer. -/
theorem misuse_write_byte_iff {b : Buffer} {i : Nat} (hl : locate addr size = some (.byte b i)) :
    Misuse (.write addr size v) s ↔ s.status.busy = true ∨ writeByte b i v s = none := by
  have hex := accessExists_of_locate hl
  obtain ⟨-, r, -, hp⟩ | ⟨-, b', i', hi, ha, hp⟩ := (locate_eq_some_iff _ _ _).1 hl
  case inl => cases hp
  cases hp
  have hoffset : ∀ q : Reg, b.base + i ≠ q.offset := fun q => by
    have hlo := q.offset_lt
    have hhi := b.base_ge
    omega
  simp [Misuse, hex, hoffset, ha, Buffer.in_window_iff hi, writeByte_eq_none_iff]

/-- R160's list for a write, in one condition: it issues no command, and the block is busy or nothing takes the value. -/
theorem misuse_write_iff :
    Misuse (.write addr size v) s ↔ issues addr size s = false ∧
      (s.status.busy = true ∨ ((locate addr size).bind fun p => writePlace p v s) = none) := by
  cases hl : locate addr size with
  | none =>
    have hex : ¬ AccessExists addr size := (locate_eq_none_iff _ _).1 hl
    simp [Misuse, issues, hl, hex]
  | some p =>
    cases p with
    | reg r =>
      rw [misuse_write_reg_iff hl]
      by_cases hcmd : r = .cmd
      · simp [issues, hl, hcmd, writePlace, writeReg]
      · simp [issues, hl, hcmd, writePlace]
    | byte b i => simp [misuse_write_byte_iff hl, issues, hl, writePlace]

/-! ### What a violation does, and what keeps the record -/

/-- A violation is recorded and changes nothing else. -/
theorem runAction_of_misuse {a : HostAction} (h : Misuse a s) : runAction a s = .next (violate a s) := by
  cases a with
  | read addr size => rw [runAction, hostRead, (locate_eq_none_iff _ _).2 h]
  | write addr size v =>
    obtain ⟨hi, hb | hn⟩ := misuse_write_iff.1 h
    · rw [runAction, hi, hostStore, if_pos hb]
      rfl
    · rw [runAction, hi, hostStore, hn, ite_self]
      rfl
  | answer ans => rw [runAction, hostAnswer_of_not_pending h]
  | reset => exact h.elim

/-- No command records a violation. -/
theorem exec_violations {i : Instr} (h : exec i s = .next t) : t.violations = s.violations := by
  rcases exec_cases h with ⟨e, -, rfl⟩ | ⟨v, -, rfl⟩ | ⟨ty, -, rfl⟩ | ⟨-, -, rfl⟩ | ⟨v, -, -, rfl⟩ |
    ⟨-, -, rfl⟩ | ⟨plp, id, -, -, -, rfl⟩ | ⟨-, -, rfl⟩ | ⟨-, -, rfl⟩ | ⟨-, -, rfl⟩ <;> rfl

/-- No command word records one: an illegal one completes (R161). -/
theorem issue_violations {w : Word} (h : issue w s = .next t) : t.violations = s.violations := by
  unfold issue at h
  split at h
  · cases h
    rfl
  · exact exec_violations (s := recordIssue w s) h

/-- A write that a place takes records none. -/
theorem writePlace_violations {p : Place} (h : writePlace p v s = some t) :
    t.violations = s.violations := by
  cases p with
  | reg r =>
    rcases writeReg_cases h with ⟨-, rfl⟩ | ⟨-, rfl⟩ | ⟨-, -, -, rfl⟩ | ⟨-, rfl⟩ | ⟨-, -, rfl⟩ <;> rfl
  | byte b i =>
    rw [writePlace, writeByte] at h
    split_ifs at h
    cases h
    rfl

/-- The end of a RECV that fails records none. -/
@[simp] theorem recvFail_violations (e : ErrorCode) (s : State) :
    (recvFail e s).violations = s.violations := rfl

/-- A datagram records none, whatever becomes of it. -/
theorem recvDatagram_violations (d : List Byte) (src : Word) (s : State) :
    (recvDatagram d src s).violations = s.violations := by
  rcases recvDatagram_cases d src s with ⟨-, -, he⟩ | he | ⟨-, he⟩ | ⟨m, -, -, -, he⟩ <;> rw [he] <;> simp

/-- The step of an allowed answer records none. -/
theorem takeAnswer_violations (ans : HostAnswer) (s : State) :
    (takeAnswer ans s).violations = s.violations := by
  cases ans with
  | recvfromOk d src => exact recvDatagram_violations d src s
  | _ => rfl

/-- An action that R160 does not list keeps the record. -/
theorem runAction_violations_of_not_misuse {a : HostAction} (hm : ¬ Misuse a s)
    (h : runAction a s = .next t) : t.violations = s.violations := by
  cases a with
  | read addr size =>
    cases h
    unfold hostRead
    split
    · rfl
    · rfl
    · next hl => exact absurd ((locate_eq_none_iff _ _).1 hl) hm
  | write addr size v =>
    cases hi : issues addr size s with
    | true =>
      rw [runAction, if_pos hi] at h
      exact issue_violations h
    | false =>
      rw [misuse_write_iff, not_and, not_or] at hm
      obtain ⟨hb, hw⟩ := hm hi
      obtain ⟨u, hu⟩ := Option.ne_none_iff_exists'.1 hw
      obtain ⟨p, -, hp⟩ := Option.bind_eq_some_iff.1 hu
      rw [runAction, hi, hostStore, if_neg hb, hu] at h
      cases h
      exact writePlace_violations hp
  | answer ans =>
    cases h
    rw [hostAnswer_of_pending (not_not.1 hm)]
    exact takeAnswer_violations ans s
  | reset =>
    cases h
    rfl

/-- R160's list does not speak of the actions to come. -/
theorem misuse_withScript {a : HostAction} {rest : List HostAction} :
    Misuse a { s with script := rest } ↔ Misuse a s := by
  cases a with
  | answer ans => exact answersPending_withScript.not
  | read addr size | write addr size v | reset => exact Iff.rfl

/-- Settles O16: the host port refuses exactly the actions that R160 lists, and nothing else reaches the record. -/
theorem misuseIsRecordedAndChangesNoBlockState : Obligations.MisuseIsRecordedAndChangesNoBlockState := by
  intro s a rest hs
  rw [step_cons hs, ← misuse_withScript (rest := rest)]
  exact ⟨runAction_of_misuse, fun hm _ => runAction_violations_of_not_misuse hm⟩

/-- Settles O17: a step without an action changes nothing, and an action is a violation or keeps the record. -/
theorem violationRecordIsNeverCleared : Obligations.ViolationRecordIsNeverCleared := by
  intro s t h
  rcases step_next_cases h with ⟨-, rfl⟩ | ⟨a, rest, hs, -⟩
  · exact .inl rfl
  obtain ⟨hrecorded, hkept⟩ := misuseIsRecordedAndChangesNoBlockState s a rest hs
  by_cases hm : Misuse a s
  · rw [hrecorded hm] at h
    cases h
    exact .inr ⟨a, rest, hs, rfl⟩
  · exact .inl (hkept hm t h)

end Sys2Proof.Machine
end

section
/-! The issue step (spec/60_exceptions.md R152, R161): a word that is illegal, a legal one, and how a command ends in
it (R153, R154). -/

namespace Sys2Proof.Machine

variable {s t : State} {w : Word} {i : Instr} {rest : List HostAction}

/-! ### Which word is issued -/

/-- The step of a word that matches no row of R73. -/
theorem step_of_illegal_word (hb : s.status.busy = false) (hs : s.script = .write 0x00000 4 w :: rest)
    (hw : ∀ r ∈ opcodeRows, w &&& r.mask ≠ r.pattern) :
    step s = .next (complete .illegalCommand (recordIssue w { s with script := rest })) := by
  rw [step_command hb hs, issue]
  cases hd : decode w with
  | error _ => rfl
  | ok i =>
    obtain ⟨r, hr, -, hrow⟩ := row_of_decode hd
    exact absurd hrow (hw r hr)

/-- Settles O5: a word that matches no row does not decode. -/
theorem illegalWordCompletesWithIllegalCommand : Obligations.IllegalWordCompletesWithIllegalCommand :=
  fun _ _ _ _ hb hs hw => ⟨step_of_illegal_word hb hs hw, rfl⟩

/-- Settles O6: a legal word is the word of the command it decodes to. -/
theorem stepRunsTheDecodedCommand : Obligations.StepRunsTheDecodedCommand := by
  intro s w i rest _ hb hs hd
  obtain rfl := encode_of_decode hd
  exact step_issueCommand hd hb hs

/-- The script that withFetchWord makes begins with the write of the word to CMD. -/
theorem withFetchWord_script (s : State) {n : Nat} (h : n < 2 ^ 32) :
    (s.withFetchWord 32 n).script = .write 0x00000 4 (BitVec.ofNat 32 n) :: s.script := by
  rw [State.withFetchWord, commandWrite, Nat.mod_eq_of_lt h]

/-- Settles O7: the action put first is consumed, so the script is again what it was. -/
theorem fetchWordRunsNext : Obligations.FetchWordRunsNext :=
  fun s n i hclean hb hn hd =>
    stepRunsTheDecodedCommand (s.withFetchWord 32 n) _ i s.script hclean hb 
      (withFetchWord_script s hn) hd

/-! ### How a command ends in its issue step -/

/-- The command ended without an error (R153): PHASE stays and the host is asked nothing, but for CLOSE, which ends the
session and tells the host so (R138). -/
structure SucceedsAtIssue (i : Instr) (s t : State) : Prop where
  status : t.status = endedStatus .none (if i = .close then .noSession else s.status.phase)
  hstep : t.hstep = .idle
  outbox : t.outbox = if i = .close then s.outbox ++ [.close] else s.outbox

/-- The commands that have an answer of the host to wait for (R120). -/
def asksHost : Instr → Bool
  | .construct _ _ _ | .send | .recv => true
  | .csum _ | .encode _ | .patch | .decode _ | .strip | .close => false

/-- A command fails in its issue step, or succeeds there, or asks the host and leaves ERR alone. -/
theorem exec_end_cases (h : exec i s = .next t) :
    (∃ e, e ≠ .none ∧ t = complete e s) ∨ SucceedsAtIssue i s t ∨
      (asksHost i = true ∧ t.status.err = s.status.err) := by
  rcases exec_cases h with hfail | ⟨v, rfl, rfl⟩ | ⟨ty, rfl, rfl⟩ | ⟨rfl, -, rfl⟩ | ⟨v, rfl, -, rfl⟩ |
    ⟨rfl, -, rfl⟩ | ⟨plp, id, rfl, -, -, rfl⟩ | ⟨rfl, -, rfl⟩ | ⟨rfl, -, rfl⟩ | ⟨rfl, -, rfl⟩
  · exact .inl hfail
  · exact .inr (.inl ⟨rfl, rfl, rfl⟩)
  · exact .inr (.inl ⟨rfl, rfl, rfl⟩)
  · exact .inr (.inl ⟨rfl, rfl, rfl⟩)
  · exact .inr (.inl ⟨rfl, rfl, rfl⟩)
  · exact .inr (.inl ⟨rfl, rfl, rfl⟩)
  · exact .inr (.inr ⟨rfl, rfl⟩)
  · exact .inr (.inr ⟨rfl, rfl⟩)
  · exact .inr (.inr ⟨rfl, rfl⟩)
  · exact .inr (.inl ⟨rfl, rfl, rfl⟩)

/-- Settles O22: a command that asks the host nothing fails or succeeds in its issue step. -/
theorem hostlessCommandsCompleteAtIssue : Obligations.HostlessCommandsCompleteAtIssue := by
  intro s i _ hi
  obtain ⟨t, ht⟩ := exists_exec_eq_next i s
  rcases exec_end_cases ht with ⟨e, he, rfl⟩ | ⟨hstatus, hstep, hout⟩ | ⟨hasks, -⟩
  · refine ⟨_, e, ht, ?_⟩
    simp only [he, and_false, if_false]
    exact ⟨rfl, rfl, rfl⟩
  · exact ⟨t, .none, ht, by simpa using hstatus, hstep, by simpa using hout⟩
  · rcases hi with ⟨v, rfl⟩ | ⟨ty, rfl⟩ | rfl | ⟨v, rfl⟩ | rfl | rfl <;> cases hasks

/-- Settles O23: only a failing command sets ERR in its issue step. -/
theorem failingIssueWritesOnlyStatus : Obligations.FailingIssueWritesOnlyStatus := by
  intro s t i _ hok h herr
  rcases exec_end_cases h with ⟨e, he, rfl⟩ | ⟨hstatus, -, -⟩ | ⟨-, hkept⟩
  · exact ⟨e, he, rfl⟩
  · rw [hstatus] at herr
    cases herr
  · rw [hkept, hok] at herr
    cases herr

end Sys2Proof.Machine
end

section
/-! Reset (spec/70_reset_and_hazards.md R170, R171): what a host finds in the block after one, and what becomes of the
answer to the request that it abandons. -/

namespace Sys2Proof.Machine

variable {s : State} {rest : List HostAction}

/-! ### The reset values -/

/-- The values a host reads in the reset state (R21). -/
theorem readReg_reset (r : Reg) : readReg r State.reset = if r = .plen then 56 else 0 := by
  cases r <;> rfl

/-- Memory lists no byte in the reset state, so every address reads as 0 (R41). -/
theorem read_reset (a : Nat) : State.reset.mem.read a = 0 := rfl

/-- A reset leaves nothing of the earlier registers. -/
theorem readReg_hardReset (r : Reg) (s : State) : readReg r (hardReset s) = readReg r State.reset := by
  cases r <;> rfl

/-- Settles O10. -/
theorem resetStateHoldsTheResetValues : Obligations.ResetStateHoldsTheResetValues :=
  ⟨readReg_reset, read_reset, rfl, rfl, rfl, rfl, rfl, rfl⟩

/-! ### A reset at any time -/

/-- An idle block waits for no answer, so one that comes is a host violation (R160). -/
theorem misuse_answer_of_idle (hi : s.hstep = .idle) (ans : HostAnswer) : Misuse (.answer ans) s :=
  fun hp => hp.hstep_ne_idle hi

/-- An answer to an idle block is recorded and changes nothing else. -/
theorem step_answer_of_idle {ans : HostAnswer} (hi : s.hstep = .idle) (hs : s.script = .answer ans :: rest) :
    step s = .next { s with script := rest, violations := s.violations ++ [.answer ans] } :=
  (step_cons hs).trans (runAction_of_misuse (misuse_answer_of_idle hi ans))

/-- Settles O11: the block is idle after a reset, whatever it was waiting for. -/
theorem hostResetGivesTheResetValues : Obligations.HostResetGivesTheResetValues := by
  intro s rest hs
  refine ⟨_, step_reset hs, fun r => (readReg_hardReset r _).trans (readReg_reset r), read_reset,
    rfl, rfl, rfl, rfl, rfl, rfl, rfl, rfl, rfl, ?_⟩
  intro ans rest' hrest
  exact step_answer_of_idle rfl hrest

end Sys2Proof.Machine
end

section
/-! No step stops the block (spec/60_exceptions.md R157, R160): an error ends a command with a code, and misuse is
recorded. -/

namespace Sys2Proof.Machine

/-- Settles O8, by cases on what the step does: with no host action left the state stays, and a read, a write, an answer,
a reset and every command issued by a write have a next state each (`exists_runAction_eq_next`, `exists_exec_eq_next`). -/
theorem everyStepAnswersNext : Obligations.EveryStepAnswersNext :=
  exists_step_eq_next

end Sys2Proof.Machine
end
